-- ==== Sys2Proof/Word.lean ====
section
/-! DEFINITION. The words of THFE-CORE: 32-bit bus and torus words, 8-bit element ids, complex values, and a value
paired with the overflow indicator of the command in flight. -/

namespace Sys2Proof

/-- A 32-bit word: of the host bus, of a register, of a ring coefficient (00_scope.md R11, 20_memory.md R48). -/
abbrev Word := BitVec 32

/-- The id of a ring element, an 8-bit field of the command word (30_encoding.md R71, kinds R and Rl). -/
abbrev RingId := BitVec 8

/-- The id of a frequency element, an 8-bit field of the command word (30_encoding.md R71, kind F). -/
abbrev FreqId := BitVec 8

/-- A complex value of two signed integers (00_scope.md R16). -/
structure Cplx where
  /-- the real component -/
  re : Int
  /-- the imaginary component -/
  im : Int
  deriving DecidableEq, Repr

/-- The complex value 0. -/
def Cplx.zero : Cplx := ⟨0, 0⟩

/-- A computed value together with `cmd_ovf`, the overflow indicator its computation raised (00_scope.md R15). -/
structure Calc (α : Type) where
  /-- the value -/
  val : α
  /-- whether some `fit` of the computation saw a value out of range -/
  ovf : Bool
  deriving DecidableEq, Repr

end Sys2Proof
end

