-- ==== Sys2Proof/Syntax.lean ====
section
/-! DEFINITION. The commands of THFE-CORE: one constructor per row of the opcode map (30_encoding.md R73), its operands
in the order D, A, B of the command word. -/

namespace Sys2Proof

/-- A command. Operand ids are the 8-bit fields as they stand in the word; whether they name an element is checked at
issue (30_encoding.md R75, 60_exceptions.md R127). -/
inductive Instr where
  /-- 0x00 NOP (43_extprod.md R122) -/
  | nop
  /-- 0x01 FFT_FWD: D = frequency element (40_transform.md R86) -/
  | fftFwd (f : FreqId)
  /-- 0x02 FFT_INV: D = frequency element (40_transform.md R87) -/
  | fftInv (f : FreqId)
  /-- 0x03 R2F_T: D = frequency element, A = ring element (41_frequency.md R96) -/
  | r2fT (f : FreqId) (r : RingId)
  /-- 0x04 R2F_I: D = frequency element, A = ring element (41_frequency.md R97) -/
  | r2fI (f : FreqId) (r : RingId)
  /-- 0x05 F2R: D = ring element, A = frequency element (41_frequency.md R98) -/
  | f2r (r : RingId) (f : FreqId)
  /-- 0x06 FCLEAR: D = frequency element (41_frequency.md R99) -/
  | fclear (f : FreqId)
  /-- 0x07 FADDC: D = frequency element (41_frequency.md R100) -/
  | faddc (f : FreqId)
  /-- 0x08 FMAC: D = accumulator, A and B = factors, all frequency elements (41_frequency.md R101) -/
  | fmac (d a b : FreqId)
  /-- 0x10 DECOMP: D = first of ELL ring elements, A = source ring element (42_gsw.md R110) -/
  | decomp (r a : RingId)
  /-- 0x20 GSW_ALLOC (42_gsw.md R111) -/
  | gswAlloc
  /-- 0x21 GSW_FREE (42_gsw.md R112) -/
  | gswFree
  /-- 0x22 GSW_CLEAR (42_gsw.md R113) -/
  | gswClear
  /-- 0x23 GSW_ADDG (42_gsw.md R114) -/
  | gswAddg
  /-- 0x24 GSW_TOF (42_gsw.md R115) -/
  | gswTof
  /-- 0x25 GSW_FROMF (42_gsw.md R116) -/
  | gswFromf
  /-- 0x30 EXTPROD (43_extprod.md R120) -/
  | extprod
  deriving DecidableEq, Repr

/-- The verdict of decoding a 32-bit word (30_encoding.md R75). -/
inductive Verdict where
  /-- the opcode is not in the opcode map (30_encoding.md R74): the command fails with E_ILLEGAL_OPC -/
  | illegal
  /-- a field the opcode does not use is nonzero (30_encoding.md R71): the command fails with E_RSVD -/
  | reserved
  /-- a command -/
  | command (i : Instr)
  deriving DecidableEq, Repr

end Sys2Proof
end

