-- ==== Sys2Proof/Decode.lean ====
section
/-! DEFINITION. Decoding of command words, total on every 32-bit word (30_encoding.md R70, R73 to R76), and the encoder
(30_encoding.md R70, R73). -/

namespace Sys2Proof

/-- OPC, bits [31:24] of a command word (30_encoding.md R70). -/
def opcField (w : Word) : BitVec 8 := w.extractLsb' 24 8

/-- D, bits [23:16]. -/
def dField (w : Word) : BitVec 8 := w.extractLsb' 16 8

/-- A, bits [15:8]. -/
def aField (w : Word) : BitVec 8 := w.extractLsb' 8 8

/-- B, bits [7:0]. -/
def bField (w : Word) : BitVec 8 := w.extractLsb' 0 8

/-- The verdict `command i` unless one of the unused fields is nonzero (30_encoding.md R75). -/
def unlessReserved (unused : List (BitVec 8)) (i : Instr) : Verdict :=
  if unused.all (fun v => v == 0#8) then .command i else .reserved

/-- `decode` of 30_encoding.md R75 over the opcode map of R73. -/
def decode (w : Word) : Verdict :=
  let d := dField w
  let a := aField w
  let b := bField w
  match (opcField w).toNat with
  | 0x00 => unlessReserved [d, a, b] .nop
  | 0x01 => unlessReserved [a, b] (.fftFwd d)
  | 0x02 => unlessReserved [a, b] (.fftInv d)
  | 0x03 => unlessReserved [b] (.r2fT d a)
  | 0x04 => unlessReserved [b] (.r2fI d a)
  | 0x05 => unlessReserved [b] (.f2r d a)
  | 0x06 => unlessReserved [a, b] (.fclear d)
  | 0x07 => unlessReserved [a, b] (.faddc d)
  | 0x08 => unlessReserved [] (.fmac d a b)
  | 0x10 => unlessReserved [b] (.decomp d a)
  | 0x20 => unlessReserved [d, a, b] .gswAlloc
  | 0x21 => unlessReserved [d, a, b] .gswFree
  | 0x22 => unlessReserved [d, a, b] .gswClear
  | 0x23 => unlessReserved [d, a, b] .gswAddg
  | 0x24 => unlessReserved [d, a, b] .gswTof
  | 0x25 => unlessReserved [d, a, b] .gswFromf
  | 0x30 => unlessReserved [d, a, b] .extprod
  | _ => .illegal

/-- The instruction read from a table word: `nbits` bits numbered from the least significant, every bit above them 0. A
command is one 32-bit word (30_encoding.md R76). -/
def decodeTableWord (nbits w : Nat) : Option Instr :=
  match decode (BitVec.ofNat 32 (w % 2 ^ nbits)) with
  | .command i => some i
  | .reserved => none
  | .illegal => none

/-- A command word from its four fields (30_encoding.md R70). -/
def commandWord (opc d a b : BitVec 8) : Word := opc ++ d ++ a ++ b

/-- The word of a command (30_encoding.md R70, R73): unused fields are 0. -/
def encode : Instr → Word
  | .nop => commandWord 0x00 0 0 0
  | .fftFwd f => commandWord 0x01 f 0 0
  | .fftInv f => commandWord 0x02 f 0 0
  | .r2fT f r => commandWord 0x03 f r 0
  | .r2fI f r => commandWord 0x04 f r 0
  | .f2r r f => commandWord 0x05 r f 0
  | .fclear f => commandWord 0x06 f 0 0
  | .faddc f => commandWord 0x07 f 0 0
  | .fmac d a b => commandWord 0x08 d a b
  | .decomp r a => commandWord 0x10 r a 0
  | .gswAlloc => commandWord 0x20 0 0 0
  | .gswFree => commandWord 0x21 0 0 0
  | .gswClear => commandWord 0x22 0 0 0
  | .gswAddg => commandWord 0x23 0 0 0
  | .gswTof => commandWord 0x24 0 0 0
  | .gswFromf => commandWord 0x25 0 0 0
  | .extprod => commandWord 0x30 0 0 0

end Sys2Proof
end

