-- ==== Sys2Proof/Config.lean ====
section
/-! DEFINITION. What an instance of THFE-CORE fixes (the synthesis parameters of 00_scope.md R7) and the free values
the spec leaves open (the contents of memory that nothing has written). -/

namespace Sys2Proof

/-- The synthesis parameters of an instance (00_scope.md R7). They are fixed for the instance; State carries them
(notes/assumptions/1.md). -/
structure Params where
  /-- LOGN, log2 of the ring dimension N -/
  logn : Nat
  /-- K_MAX, the largest mask width -/
  kMax : Nat
  /-- ELL_MAX, the largest decomposition length -/
  ellMax : Nat
  /-- NGR, the number of general-purpose ring elements -/
  ngr : Nat
  /-- NGF, the number of general-purpose frequency elements -/
  ngf : Nat
  /-- DW, the width in bits of one fixed-point component -/
  dw : Nat
  deriving DecidableEq, Repr

/-- The default instance (00_scope.md R7). -/
def Params.default : Params :=
  { logn := 11, kMax := 1, ellMax := 4, ngr := 8, ngf := 8, dw := 64 }

/-- FREE VALUE. What the word at a RING or FREQ offset holds after the given number of resets until something writes
it: unspecified, fixed once drawn (10_state.md R47, 20_memory.md R67, 93_implementation_defined.md U3 to U5). It has no
body, so no proof can know a value of it (notes/assumptions/2.md). -/
opaque Config.unwrittenWord : (epoch : Nat) → (offset : Nat) → Word

end Sys2Proof
end

