-- ==== Sys2Proof/Machine/State.lean ====
section
/-! DEFINITION. The state of THFE-CORE as plain data (10_state.md), the events that move it, the reasons a step can
stop, and the state after reset (10_state.md R47, 70_reset_and_hazards.md R145). -/

namespace Sys2Proof.Machine

/-- GSW_STATE (10_state.md R29). Value 3 never occurs and has no constructor. -/
inductive GswState where
  /-- 0: not constructed, or destroyed -/
  | free
  /-- 1: constructed, contents not yet defined -/
  | alloc
  /-- 2: holds a sample -/
  | ready
  deriving DecidableEq, Repr

/-- The causes a command can fail with (60_exceptions.md R126). Codes 0x07 to 0xFF are never recorded and have no
constructor. -/
inductive ErrCode where
  /-- 0x01 E_ILLEGAL_OPC -/
  | illegalOpc
  /-- 0x02 E_RSVD -/
  | rsvd
  /-- 0x03 E_CFG -/
  | cfg
  /-- 0x04 E_BAD_ID -/
  | badId
  /-- 0x05 E_STATE -/
  | state
  /-- 0x06 E_SHAPE -/
  | shape
  deriving DecidableEq, Repr

/-- The fields of CFG and of GSW_SHAPE, which uses CFG's layout (10_state.md R37, R41). Reserved bits are not stored:
they read 0 and ignore writes (R45). -/
structure Cfg where
  /-- K, the mask width -/
  k : BitVec 4
  /-- ELL, the decomposition length -/
  ell : BitVec 4
  /-- BGBIT, log2 of the decomposition base -/
  bgbit : BitVec 5
  deriving DecidableEq, Repr

/-- The fields of SHIFT (10_state.md R38). -/
structure Shift where
  /-- TSH, the torus-operand scale shift -/
  tsh : BitVec 6
  /-- DSH, the digit-operand scale shift -/
  dsh : BitVec 6
  /-- PSH, the product right-shift -/
  psh : BitVec 7
  deriving DecidableEq, Repr

/-- The fields of IRQ_EN (10_state.md R43). -/
structure IrqEn where
  /-- DONE_IE -/
  doneIe : Bool
  /-- ERR_IE -/
  errIe : Bool
  deriving DecidableEq, Repr

/-- The registers of the register block (10_state.md R32). -/
inductive Reg where
  /-- 0x000, read-only -/
  | id
  /-- 0x004, read-only -/
  | version
  /-- 0x008, read-only -/
  | param0
  /-- 0x00C, read-only -/
  | param1
  /-- 0x010, read/write -/
  | cfg
  /-- 0x014, read/write -/
  | shift
  /-- 0x018, read/write -/
  | const
  /-- 0x01C, read-only -/
  | gswShape
  /-- 0x020, a write issues, a read gives LAST_CMD -/
  | cmd
  /-- 0x024, read-only and write-1-to-clear bits -/
  | status
  /-- 0x028, read/write -/
  | irqEn
  /-- 0x02C, read-only -/
  | cmdCount
  deriving DecidableEq, Repr

/-- What an offset of the host bus names (20_memory.md R49). -/
inductive Target where
  /-- a register -/
  | reg (r : Reg)
  /-- a twiddle ROM word -/
  | twrom (i : Nat)
  /-- a bit-reversal ROM word -/
  | brrom (i : Nat)
  /-- a twist ROM word: entry j, the cos word or (sine) the sin word -/
  | twist (j : Nat) (sine : Bool)
  /-- a RING word -/
  | ring
  /-- a FREQ word -/
  | freq
  /-- nothing: a reserved, unmapped or unaligned offset (R46, R54, R57) -/
  | unmapped
  deriving DecidableEq, Repr

/-- A host bus access (20_memory.md R48, R54). Addresses are offsets from THFE_BASE. -/
inductive Access where
  /-- an aligned or unaligned 32-bit read -/
  | read (addr : Word)
  /-- a 32-bit write -/
  | write (addr data : Word)
  /-- an access of a width other than 32 bits, a write or a read (R54) -/
  | narrow (isWrite : Bool) (addr : Word)
  deriving DecidableEq, Repr

/-- The response to a host access: the data of a read, and whether it is a bus error (20_memory.md R68). -/
structure BusResp where
  /-- the data of a read; none for a write -/
  data : Option Word
  /-- whether this is a bus error response -/
  error : Bool
  deriving DecidableEq, Repr

/-- One entry of the agenda: who moves next (notes/assumptions/5.md). -/
inductive Event where
  /-- the host makes a bus access -/
  | access (a : Access)
  /-- the engine moves: it completes the command in flight, if there is one (60_exceptions.md R132) -/
  | engine
  /-- the platform asserts and releases rst (70_reset_and_hazards.md R145) -/
  | reset
  deriving DecidableEq, Repr

/-- RING and FREQ as one list of (host offset, word) pairs; an offset that is not listed has not been written since
reset (20_memory.md R49, R67; notes/assumptions/3.md). -/
abbrev Memory := List (Nat × Word)

/-- Why the machine could stop with a fault: never. THFE-CORE "raises no trap, no exception and no asynchronous fault"
(60_exceptions.md R125), so there is no constructor: nothing raises one, and that is safe. -/
inductive Fault where
  deriving DecidableEq, Repr

/-- Why a step has no meaning. -/
inductive Refusal where
  /-- raised by exec for a command that has no meaning yet; safe -/
  | notModelled (mnemonic : String)
  /-- raised by step when the state's synthesis parameters are those of no instance (00_scope.md R7,
  93_implementation_defined.md U1, U2); safe -/
  | noSuchInstance
  deriving DecidableEq, Repr

/-- The state of THFE-CORE (10_state.md). ID, VERSION, PARAM0, PARAM1 and the three ROMs are constants of the instance,
computed from `params`. The last three fields are the model's own. -/
structure State where
  /-- the synthesis parameters of the instance (00_scope.md R7) -/
  params : Params
  /-- CFG (R37) -/
  cfg : Cfg
  /-- SHIFT (R38) -/
  shift : Shift
  /-- CONST (R39) -/
  const : Word
  /-- GSW_SHAPE (R30, R41) -/
  shape : Cfg
  /-- LAST_CMD, the last word accepted for issue (R40) -/
  lastCmd : Word
  /-- CUR_CMD, the command in flight (R22) -/
  curCmd : Word
  /-- STATUS.BUSY (R42) -/
  busy : Bool
  /-- STATUS.DONE (R42) -/
  done : Bool
  /-- STATUS.ERR (R42) -/
  err : Bool
  /-- STATUS.OVF (R42) -/
  ovf : Bool
  /-- STATUS.CMD_OVR (R42) -/
  cmdOvr : Bool
  /-- STATUS.BUS_ERR (R42) -/
  busErr : Bool
  /-- STATUS.GSW_STATE (R29, R42) -/
  gswState : GswState
  /-- STATUS.ERRCODE, none for code 0x00 (R42, 60_exceptions.md R126) -/
  errCode : Option ErrCode
  /-- IRQ_EN (R43) -/
  irqEn : IrqEn
  /-- CMD_COUNT (R44) -/
  cmdCount : Word
  /-- RING and FREQ (R23, R24) -/
  mem : Memory
  /-- MODEL: how many resets have happened; it selects the free values of unwritten memory (notes/assumptions/2.md) -/
  epoch : Nat
  /-- MODEL: who moves next; with an empty agenda the engine moves (notes/assumptions/5.md) -/
  agenda : List Event
  /-- MODEL: the response to the host's last access since reset (notes/assumptions/9.md) -/
  resp : Option BusResp
  deriving DecidableEq, Repr

/-- An instance right after its reset number `epoch`, with an empty agenda (10_state.md R47). -/
def State.afterReset (p : Params) (epoch : Nat) : State :=
  { params := p
    cfg := { k := 1, ell := 1, bgbit := 8 }
    shift := { tsh := 0, dsh := 32, psh := 32 }
    const := 0
    shape := { k := 0, ell := 0, bgbit := 0 }
    lastCmd := 0
    curCmd := 0
    busy := false
    done := false
    err := false
    ovf := false
    cmdOvr := false
    busErr := false
    gswState := .free
    errCode := none
    irqEn := { doneIe := false, errIe := false }
    cmdCount := 0
    mem := []
    epoch := epoch
    agenda := []
    resp := none }

/-- The default instance right after reset (00_scope.md R7, 10_state.md R47). -/
def State.reset : State := State.afterReset Params.default 0

end Sys2Proof.Machine
end

