-- ==== Sys2Proof/Machine/Flags.lean ====
section
/-! DEFINITION. The arithmetic primitives with the overflow indicator (00_scope.md R12 to R16), and the status and
interrupt registers (10_state.md R42, R43, 60_exceptions.md R126, R134). -/

namespace Sys2Proof

/-! ### Calculations that carry the overflow indicator (00_scope.md R15) -/

/-- A value computed without overflow. -/
def Calc.exact {α : Type} (v : α) : Calc α := ⟨v, false⟩

/-- Continue a calculation with the value so far; the indicators are ORed. -/
def Calc.andThen {α β : Type} (c : Calc α) (f : α → Calc β) : Calc β :=
  let d := f c.val
  ⟨d.val, c.ovf || d.ovf⟩

/-- Two components as one complex value. -/
def Calc.cplx (re im : Calc Int) : Calc Cplx := ⟨⟨re.val, im.val⟩, re.ovf || im.ovf⟩

/-- A calculation per list entry, each independent of the others. -/
def Calc.each {α β : Type} (f : α → Calc β) : List α → Calc (List β)
  | [] => ⟨[], false⟩
  | x :: xs =>
    let c := f x
    let d := Calc.each f xs
    ⟨c.val :: d.val, c.ovf || d.ovf⟩

/-- A `for` loop: the steps run over the list in order (00_scope.md R17), each on the value the one before left. -/
def Calc.loop {α β : Type} (f : β → α → Calc β) : β → List α → Calc β
  | b, [] => ⟨b, false⟩
  | b, x :: xs =>
    let c := f b x
    let d := Calc.loop f c.val xs
    ⟨d.val, c.ovf || d.ovf⟩

end Sys2Proof

namespace Sys2Proof.Machine

/-! ### Integers and rounding (00_scope.md R12 to R14) -/

/-- 2^n as an integer. -/
def pow2 (n : Nat) : Int := Int.ofNat (2 ^ n)

/-- `sext_n(v)`: the low n bits of v as a two's-complement number (00_scope.md R13). -/
def sext (n : Nat) (v : Int) : Int :=
  let u := v % pow2 n
  if u < pow2 (n - 1) then u else u - pow2 n

/-- `signed32(w)` (00_scope.md R13). -/
def signed32 (w : Word) : Int := sext 32 (Int.ofNat w.toNat)

/-- `low32(v)` (00_scope.md R13). -/
def low32 (v : Int) : Word := BitVec.ofInt 32 v

/-- `rnd(v, n)`: round to nearest, ties toward plus infinity (00_scope.md R14). -/
def rnd (v : Int) : (n : Nat) → Int
  | 0 => v
  | n + 1 => (v + pow2 n) / pow2 (n + 1)

/-! ### Fitting to the datapath width, complex values (00_scope.md R15, R16) -/

/-- Whether v is a DW-bit two's-complement value. -/
def inRange (dw : Nat) (v : Int) : Bool := decide (-(pow2 (dw - 1)) ≤ v) && decide (v < pow2 (dw - 1))

/-- `fit(v)`: wrap to DW bits, raising the indicator when v is out of range (00_scope.md R15). -/
def fit (dw : Nat) (v : Int) : Calc Int := ⟨sext dw v, !inRange dw v⟩

/-- `addw(a, b)` (00_scope.md R15). -/
def addw (dw : Nat) (a b : Int) : Calc Int := fit dw (a + b)

/-- `subw(a, b)` (00_scope.md R15). -/
def subw (dw : Nat) (a b : Int) : Calc Int := fit dw (a - b)

/-- `addw` on both components. -/
def addc (dw : Nat) (x y : Cplx) : Calc Cplx := Calc.cplx (addw dw x.re y.re) (addw dw x.im y.im)

/-- `subw` on both components. -/
def subc (dw : Nat) (x y : Cplx) : Calc Cplx := Calc.cplx (subw dw x.re y.re) (subw dw x.im y.im)

/-- The exact complex product, before any rounding (00_scope.md R16, 41_frequency.md R101). -/
def cmulExact (x y : Cplx) : Cplx := ⟨x.re * y.re - x.im * y.im, x.re * y.im + x.im * y.re⟩

/-- The exact product rounded once per component by n bits, then fitted (00_scope.md R16, 41_frequency.md R101). -/
def cmulRnd (dw n : Nat) (x y : Cplx) : Calc Cplx :=
  let e := cmulExact x y
  Calc.cplx (fit dw (rnd e.re n)) (fit dw (rnd e.im n))

/-- `cmul30(w, x)`: multiply by a ROM coefficient of 30 fraction bits (00_scope.md R16). -/
def cmul30 (dw : Nat) (w x : Cplx) : Calc Cplx := cmulRnd dw 30 w x

/-- `conj(w)` (00_scope.md R16). -/
def conj (w : Cplx) : Cplx := ⟨w.re, -w.im⟩

/-! ### STATUS and the interrupt -/

/-- The value of GSW_STATE (10_state.md R29). -/
def GswState.bits : GswState → BitVec 2
  | .free => 0
  | .alloc => 1
  | .ready => 2

/-- The recorded code of a failure (60_exceptions.md R126). -/
def ErrCode.bits : ErrCode → BitVec 8
  | .illegalOpc => 0x01
  | .rsvd => 0x02
  | .cfg => 0x03
  | .badId => 0x04
  | .state => 0x05
  | .shape => 0x06

/-- The ERRCODE field: 0x00 when no error is recorded (60_exceptions.md R126). -/
def errCodeBits : Option ErrCode → BitVec 8
  | none => 0
  | some c => c.bits

/-- STATUS as the host reads it (10_state.md R42). -/
def State.statusWord (s : State) : Word :=
  (0#16 ++ errCodeBits s.errCode ++ s.gswState.bits ++ BitVec.ofBool s.busErr ++ BitVec.ofBool s.cmdOvr
    ++ BitVec.ofBool s.ovf ++ BitVec.ofBool s.err ++ BitVec.ofBool s.done ++ BitVec.ofBool s.busy).setWidth 32

/-- The interrupt output (60_exceptions.md R134). -/
def State.irq (s : State) : Bool := (s.done && s.irqEn.doneIe) || (s.err && s.irqEn.errIe)

end Sys2Proof.Machine
end

