-- ==== Sys2Proof/Machine/Operands.lean ====
section
/-! DEFINITION. Sizes of an instance, element ids, the operands of every command with their kinds, and the offsets of
memory words (00_scope.md R8, 10_state.md R25 and R26, 30_encoding.md R71 and R73, 20_memory.md R49). -/

namespace Sys2Proof

/-! ### Derived sizes (00_scope.md R8) -/

/-- N, the ring dimension. -/
def Params.n (p : Params) : Nat := 2 ^ p.logn

/-- L = N/2, the transform length. -/
def Params.l (p : Params) : Nat := 2 ^ (p.logn - 1)

/-- LOGL. -/
def Params.logL (p : Params) : Nat := p.logn - 1

/-- KPL_MAX, the number of synthesised GSW rows. -/
def Params.kplMax (p : Params) : Nat := (p.kMax + 1) * p.ellMax

/-- RSPACE, the number of ring-element ids. -/
def Params.rspace (p : Params) : Nat := (p.kplMax + 1) * (p.kMax + 1) + p.kplMax + p.ngr

/-- FSPACE, the number of frequency-element ids. -/
def Params.fspace (p : Params) : Nat := p.kplMax * (p.kMax + 1) + p.kplMax + (p.kMax + 1) + p.ngf

/-- TWROM_WORDS. -/
def Params.twromWords (p : Params) : Nat := (p.l - 4) * 2

/-! ### Element ids (10_state.md R25, R26) -/

/-- ACC(s), slot s of the accumulator. -/
def Params.acc (_p : Params) (s : Nat) : Nat := s

/-- GSWR(p, s), slot s of row `row` of the ring form of the store. -/
def Params.gswr (p : Params) (row s : Nat) : Nat := (row + 1) * (p.kMax + 1) + s

/-- DIGR(p), the digit polynomial of row `row`. -/
def Params.digr (p : Params) (row : Nat) : Nat := (p.kplMax + 1) * (p.kMax + 1) + row

/-- GR(g), a general ring element. -/
def Params.gr (p : Params) (g : Nat) : Nat := (p.kplMax + 1) * (p.kMax + 1) + p.kplMax + g

/-- GSWF(p, s), slot s of row `row` of the frequency form of the store. -/
def Params.gswf (p : Params) (row s : Nat) : Nat := row * (p.kMax + 1) + s

/-- DIGF(p), the digit spectrum of row `row`. -/
def Params.digf (p : Params) (row : Nat) : Nat := p.kplMax * (p.kMax + 1) + row

/-- TMPF(s), slot s of the temporary accumulator. -/
def Params.tmpf (p : Params) (s : Nat) : Nat := p.kplMax * (p.kMax + 1) + p.kplMax + s

/-- GF(g), a general frequency element. -/
def Params.gf (p : Params) (g : Nat) : Nat := p.kplMax * (p.kMax + 1) + p.kplMax + (p.kMax + 1) + g

/-! ### Offsets of memory words (20_memory.md R49) -/

/-- The first offset of the RING region. -/
def ringBase : Nat := 0x01000000

/-- The first offset of the FREQ region. -/
def freqBase : Nat := 0x02000000

/-- The offset of RING[r][c]. -/
def Params.ringAddr (p : Params) (r c : Nat) : Nat := ringBase + 4 * (r * p.n + c)

/-- The offset of word q of FREQ[f][j]: q = 0, 1 the low and high word of the real component, q = 2, 3 of the imaginary
one (20_memory.md R52). -/
def Params.freqAddr (p : Params) (f j q : Nat) : Nat := freqBase + 16 * (f * p.l + j) + 4 * q

/-- Whether the offset is a RING word of the instance. -/
def Params.isRing (p : Params) (a : Nat) : Bool :=
  a % 4 == 0 && Nat.ble ringBase a && Nat.blt a (ringBase + 4 * (p.rspace * p.n))

/-- Whether the offset is a FREQ word of the instance. -/
def Params.isFreq (p : Params) (a : Nat) : Bool :=
  a % 4 == 0 && Nat.ble freqBase a && Nat.blt a (freqBase + 16 * (p.fspace * p.l))

/-- Whether the offset is the high word of a FREQ component (q odd, 20_memory.md R52). -/
def Params.isFreqHigh (p : Params) (a : Nat) : Bool := p.isFreq a && a % 8 == 4

/-! ### Operands of a command (30_encoding.md R71, R73) -/

/-- The operands of kind F. -/
def Instr.freqOperands : Instr → List FreqId
  | .nop => []
  | .fftFwd f => [f]
  | .fftInv f => [f]
  | .r2fT f _ => [f]
  | .r2fI f _ => [f]
  | .f2r _ f => [f]
  | .fclear f => [f]
  | .faddc f => [f]
  | .fmac d a b => [d, a, b]
  | .decomp _ _ => []
  | .gswAlloc => []
  | .gswFree => []
  | .gswClear => []
  | .gswAddg => []
  | .gswTof => []
  | .gswFromf => []
  | .extprod => []

/-- The operands of kind R. -/
def Instr.ringOperands : Instr → List RingId
  | .nop => []
  | .fftFwd _ => []
  | .fftInv _ => []
  | .r2fT _ r => [r]
  | .r2fI _ r => [r]
  | .f2r r _ => [r]
  | .fclear _ => []
  | .faddc _ => []
  | .fmac _ _ _ => []
  | .decomp _ a => [a]
  | .gswAlloc => []
  | .gswFree => []
  | .gswClear => []
  | .gswAddg => []
  | .gswTof => []
  | .gswFromf => []
  | .extprod => []

/-- The operands of kind Rl: the first of ELL consecutive ring elements. -/
def Instr.runOperands : Instr → List RingId
  | .nop => []
  | .fftFwd _ => []
  | .fftInv _ => []
  | .r2fT _ _ => []
  | .r2fI _ _ => []
  | .f2r _ _ => []
  | .fclear _ => []
  | .faddc _ => []
  | .fmac _ _ _ => []
  | .decomp r _ => [r]
  | .gswAlloc => []
  | .gswFree => []
  | .gswClear => []
  | .gswAddg => []
  | .gswTof => []
  | .gswFromf => []
  | .extprod => []

end Sys2Proof
end

