-- ==== Sys2Proof/Machine/Ops.lean ====
section
/-! DEFINITION. The named operations over memory, elements and registers; the report of a failed command and its
acknowledgement (60_exceptions.md R128, R129, R133); the completion of an accepted one (R132); reset
(70_reset_and_hazards.md R145, R146). -/

namespace Sys2Proof.Machine

/-! ### Memory: a list of (offset, word) -/

/-- The word listed at an offset, if one is. -/
def Memory.get? : Memory → (a : Nat) → Option Word
  | [], _ => none
  | c :: m, a => if c.1 = a then some c.2 else Memory.get? m a

/-- Consecutive words from an offset on, as list entries. -/
def Memory.cells : (base : Nat) → List Word → Memory
  | _, [] => []
  | base, w :: ws => (base, w) :: Memory.cells (base + 4) ws

/-- Store consecutive words from an offset on. -/
def Memory.store (m : Memory) (base : Nat) (ws : List Word) : Memory :=
  m.filter (fun c => Nat.blt c.1 base) ++ Memory.cells base ws
    ++ m.filter (fun c => Nat.ble (base + 4 * ws.length) c.1)

/-- The entries of `count` consecutive words from an offset on. -/
def Memory.window (m : Memory) (base count : Nat) : Memory :=
  m.filter (fun c => Nat.ble base c.1 && Nat.blt c.1 (base + 4 * count))

/-! ### Frequency components as words (20_memory.md R52) -/

/-- The high word of a component's 64-bit view when `w` is written to it: its bits from DW-32 up are the sign extension
of the DW-bit component (20_memory.md R52: bits V'[63:DW] are discarded). -/
def signHigh (p : Params) (w : Word) : Word := BitVec.ofInt 32 (sext (p.dw - 32) (Int.ofNat w.toNat))

/-- A word as memory holds it at an offset: the high word of a FREQ component sign-extended, any other as it is. -/
def heldWord (p : Params) (a : Nat) (w : Word) : Word := if p.isFreqHigh a then signHigh p w else w

/-- What an offset that nothing has written since reset reads as: a free value, fixed once drawn (10_state.md R47,
20_memory.md R67; notes/assumptions/2.md). -/
def unwritten (p : Params) (epoch a : Nat) : Word := heldWord p a (Config.unwrittenWord epoch a)

/-- A component from its low and high word (20_memory.md R52). -/
def component (p : Params) (lo hi : Word) : Int := sext p.dw (Int.ofNat (hi.toNat * 2 ^ 32 + lo.toNat))

/-- The low and high word of a component's 64-bit view `sext_64(v)` (20_memory.md R52). -/
def componentWords (v : Int) : List Word := [low32 v, low32 (v / pow2 32)]

/-- The four words of an entry (20_memory.md R52). -/
def entryWords (x : Cplx) : List Word := componentWords x.re ++ componentWords x.im

/-! ### Reading and writing memory -/

/-- The word at an offset of list `m`, a free value where it is not listed. -/
def State.wordIn (s : State) (m : Memory) (a : Nat) : Word :=
  match m.get? a with
  | some w => w
  | none => unwritten s.params s.epoch a

/-- The word at a RING or FREQ offset. -/
def State.word (s : State) (a : Nat) : Word := s.wordIn s.mem a

/-- RING[r][c] (00_scope.md R17, 10_state.md R23). -/
def State.ringCoef (s : State) (r c : Nat) : Word := s.word (s.params.ringAddr r c)

/-- FREQ[f][j] read from list `m`. -/
def State.entryIn (s : State) (m : Memory) (f j : Nat) : Cplx :=
  { re := component s.params (s.wordIn m (s.params.freqAddr f j 0)) (s.wordIn m (s.params.freqAddr f j 1))
    im := component s.params (s.wordIn m (s.params.freqAddr f j 2)) (s.wordIn m (s.params.freqAddr f j 3)) }

/-- FREQ[f][j] (00_scope.md R17, 10_state.md R24). -/
def State.freqEntry (s : State) (f j : Nat) : Cplx := s.entryIn s.mem f j

/-- RING[r], all N coefficients. -/
def State.ringElem (s : State) (r : Nat) : List Word :=
  let win := s.mem.window (s.params.ringAddr r 0) s.params.n
  (List.range s.params.n).map (fun c => s.wordIn win (s.params.ringAddr r c))

/-- FREQ[f], all L entries. -/
def State.freqElem (s : State) (f : Nat) : List Cplx :=
  let win := s.mem.window (s.params.freqAddr f 0 0) (4 * s.params.l)
  (List.range s.params.l).map (fun j => s.entryIn win f j)

/-- Store consecutive words from an offset on. -/
def State.storeWords (s : State) (base : Nat) (ws : List Word) : State := { s with mem := s.mem.store base ws }

/-- RING[r] <- ws. -/
def State.setRing (s : State) (r : Nat) (ws : List Word) : State := s.storeWords (s.params.ringAddr r 0) ws

/-- FREQ[f] <- es. -/
def State.setFreq (s : State) (f : Nat) (es : List Cplx) : State :=
  s.storeWords (s.params.freqAddr f 0 0) (es.flatMap entryWords)

/-! ### Run-time parameters (00_scope.md R10) -/

/-- K = CFG.K. -/
def State.k (s : State) : Nat := s.cfg.k.toNat

/-- ELL = CFG.ELL. -/
def State.ell (s : State) : Nat := s.cfg.ell.toNat

/-- BGBIT = CFG.BGBIT. -/
def State.bgbit (s : State) : Nat := s.cfg.bgbit.toNat

/-- TSH = SHIFT.TSH. -/
def State.tsh (s : State) : Nat := s.shift.tsh.toNat

/-- DSH = SHIFT.DSH. -/
def State.dsh (s : State) : Nat := s.shift.dsh.toNat

/-- PSH = SHIFT.PSH. -/
def State.psh (s : State) : Nat := s.shift.psh.toNat

/-- KPL = (K + 1) * ELL, the rows in use (42_gsw.md R104). -/
def State.kpl (s : State) : Nat := (s.k + 1) * s.ell

/-! ### Registers as words (10_state.md R33 to R45) -/

/-- CFG or GSW_SHAPE as the host reads it; reserved bits read 0 (10_state.md R37, R41, R45). -/
def Cfg.word (c : Cfg) : Word := BitVec.ofNat 32 (c.bgbit.toNat * 2 ^ 16 + c.ell.toNat * 2 ^ 8 + c.k.toNat)

/-- The fields of CFG that a written word sets; its reserved bits are ignored (10_state.md R37, R45). -/
def cfgOfWord (w : Word) : Cfg :=
  { k := w.extractLsb' 0 4, ell := w.extractLsb' 8 4, bgbit := w.extractLsb' 16 5 }

/-- SHIFT as the host reads it (10_state.md R38, R45). -/
def Shift.word (c : Shift) : Word := BitVec.ofNat 32 (c.psh.toNat * 2 ^ 16 + c.dsh.toNat * 2 ^ 8 + c.tsh.toNat)

/-- The fields of SHIFT that a written word sets (10_state.md R38, R45). -/
def shiftOfWord (w : Word) : Shift :=
  { tsh := w.extractLsb' 0 6, dsh := w.extractLsb' 8 6, psh := w.extractLsb' 16 7 }

/-- IRQ_EN as the host reads it (10_state.md R43). -/
def IrqEn.word (c : IrqEn) : Word := BitVec.ofNat 32 (c.errIe.toNat * 2 + c.doneIe.toNat)

/-- The fields of IRQ_EN that a written word sets (10_state.md R43). -/
def irqEnOfWord (w : Word) : IrqEn := { doneIe := w.getLsbD 0, errIe := w.getLsbD 1 }

/-- PARAM0 (10_state.md R35). -/
def param0Word (p : Params) : Word :=
  BitVec.ofNat 32 (p.dw * 2 ^ 12 + p.ellMax * 2 ^ 8 + p.kMax * 2 ^ 4 + p.logn)

/-- PARAM1 (10_state.md R36). -/
def param1Word (p : Params) : Word := BitVec.ofNat 32 (p.ngf * 2 ^ 8 + p.ngr)

/-- CFG <- c. -/
def setCfg (c : Cfg) (s : State) : State := { s with cfg := c }

/-- SHIFT <- c. -/
def setShift (c : Shift) (s : State) : State := { s with shift := c }

/-- CONST <- w. -/
def setConst (w : Word) (s : State) : State := { s with const := w }

/-- IRQ_EN <- c. -/
def setIrqEn (c : IrqEn) (s : State) : State := { s with irqEn := c }

/-- LAST_CMD <- w (10_state.md R40). -/
def setLastCmd (w : Word) (s : State) : State := { s with lastCmd := w }

/-- STATUS.CMD_OVR <- 1: a CMD write while BUSY (10_state.md R40). -/
def overrun (s : State) : State := { s with cmdOvr := true }

/-- The agenda, the outside world's, becomes `rest`. -/
def setAgenda (rest : List Event) (s : State) : State := { s with agenda := rest }

/-! ### Failure, acknowledgement, completion, reset -/

/-- A command fails with code c (60_exceptions.md R128, R129): the machine's one error report. The first code since ERR
was last cleared is kept; DONE is set; nothing else changes (R131). -/
def fail (c : ErrCode) (s : State) : State :=
  { s with
    err := true
    errCode := if s.err then s.errCode else some c
    done := true }

/-- A write of w to STATUS (10_state.md R42): each W1C bit is cleared where w has a 1; clearing ERR also clears ERRCODE.
It is the acknowledgement of a failure or a completion, the only return there is (60_exceptions.md R133). -/
def acknowledge (w : Word) (s : State) : State :=
  { s with
    done := s.done && !w.getLsbD 1
    err := s.err && !w.getLsbD 2
    errCode := if w.getLsbD 2 then none else s.errCode
    ovf := s.ovf && !w.getLsbD 3
    cmdOvr := s.cmdOvr && !w.getLsbD 4
    busErr := s.busErr && !w.getLsbD 5 }

/-- The completion of an accepted command (60_exceptions.md R132, 20_memory.md R60), given the state with the command's
own changes applied and the overflow it raised. -/
def finish (c : Calc State) : State :=
  { c.val with
    ovf := c.val.ovf || c.ovf
    busy := false
    done := true
    cmdCount := c.val.cmdCount + 1
    curCmd := 0 }

/-- A command's outcome at a state: the failure its check gives, or its effect and completion. -/
def conclude (verdict : Option ErrCode) (s : State) (effect : Calc State) : Host.Outcome State Fault Refusal :=
  .next (match verdict with
    | some c => fail c s
    | none => finish effect)

/-- The command w passes its checks and is accepted (60_exceptions.md R129): BUSY <- 1, CUR_CMD <- w. -/
def accept (w : Word) (s : State) : State := { s with busy := true, curCmd := w }

/-- No command is in flight. -/
def withdraw (s : State) : State := { s with busy := false, curCmd := 0 }

/-- The platform asserts rst (70_reset_and_hazards.md R145, R146): every register takes its reset value, a command in
flight is abandoned, RING and FREQ hold unspecified values afterwards. The agenda, the outside world's, goes on. -/
def applyReset (s : State) : State := setAgenda s.agenda (State.afterReset s.params (s.epoch + 1))

/-- A state in which command word w is in flight and the engine moves next. -/
def inFlight (w : Word) (s : State) : State :=
  { s with busy := true, curCmd := w, lastCmd := w, agenda := .engine :: s.agenda }

/-- The word of a table number: `nbits` bits, every bit above them 0. -/
def tableWord (nbits w : Nat) : Word := BitVec.ofNat 32 (w % 2 ^ nbits)

/-! ### Bus responses -/

/-- A bus access is answered without error. -/
def respond (data : Option Word) (s : State) : State := { s with resp := some { data := data, error := false } }

/-- A bus error response (20_memory.md R68): BUS_ERR <- 1, and a read returns data 0. -/
def busError (isWrite : Bool) (s : State) : State :=
  { s with
    busErr := true
    resp := some { data := if isWrite then none else some 0, error := true } }

end Sys2Proof.Machine
end

