-- ==== Sys2Proof/Machine/Checks.lean ====
section
/-! DEFINITION. The checks of a command at issue (60_exceptions.md R126, R127, R130; 42_gsw.md R108, R109). -/

namespace Sys2Proof.Machine

/-- `cfg_legal()` (60_exceptions.md R130). -/
def State.cfgLegal (s : State) : Bool :=
  (Nat.ble 1 s.k && Nat.ble s.k s.params.kMax)
    && (Nat.ble 1 s.ell && Nat.ble s.ell s.params.ellMax)
    && Nat.ble 1 s.bgbit
    && Nat.ble (s.ell * s.bgbit) 31
    && Nat.ble s.tsh (s.params.dw - 33)
    && Nat.ble s.dsh (s.params.dw - 1)

/-- Whether the command needs a legal CFG and SHIFT: every one but NOP and GSW_FREE (60_exceptions.md R126). -/
def needsCfg : Instr → Bool
  | .nop => false
  | .fftFwd _ => true
  | .fftInv _ => true
  | .r2fT _ _ => true
  | .r2fI _ _ => true
  | .f2r _ _ => true
  | .fclear _ => true
  | .faddc _ => true
  | .fmac _ _ _ => true
  | .decomp _ _ => true
  | .gswAlloc => true
  | .gswFree => false
  | .gswClear => true
  | .gswAddg => true
  | .gswTof => true
  | .gswFromf => true
  | .extprod => true

/-- Whether an operand id is out of range (30_encoding.md R71, 60_exceptions.md R127). -/
def badId (i : Instr) (s : State) : Bool :=
  i.freqOperands.any (fun f => Nat.ble s.params.fspace f.toNat)
    || i.ringOperands.any (fun r => Nat.ble s.params.rspace r.toNat)
    || i.runOperands.any (fun r => Nat.ble s.params.rspace (r.toNat + s.ell - 1))

/-- Whether GSW_STATE allows the command (42_gsw.md R108); the other commands do not consult it. -/
def stateAllows : Instr → GswState → Bool
  | .gswAlloc, g => g == .free
  | .gswFree, g => g == .alloc || g == .ready
  | .gswClear, g => g == .alloc || g == .ready
  | .gswTof, g => g == .alloc || g == .ready
  | .gswAddg, g => g == .ready
  | .gswFromf, g => g == .ready
  | .extprod, g => g == .ready
  | .nop, _ => true
  | .fftFwd _, _ => true
  | .fftInv _, _ => true
  | .r2fT _ _, _ => true
  | .r2fI _ _, _ => true
  | .f2r _ _, _ => true
  | .fclear _, _ => true
  | .faddc _, _ => true
  | .fmac _ _ _, _ => true
  | .decomp _ _, _ => true

/-- Whether the command needs GSW_SHAPE to equal CFG (42_gsw.md R108, R109). -/
def needsShape : Instr → Bool
  | .gswClear => true
  | .gswTof => true
  | .gswAddg => true
  | .gswFromf => true
  | .extprod => true
  | .gswAlloc => false
  | .gswFree => false
  | .nop => false
  | .fftFwd _ => false
  | .fftInv _ => false
  | .r2fT _ _ => false
  | .r2fI _ _ => false
  | .f2r _ _ => false
  | .fclear _ => false
  | .faddc _ => false
  | .fmac _ _ _ => false
  | .decomp _ _ => false

/-- The failure of a decoded command, in the check order E_CFG, E_BAD_ID, E_STATE, E_SHAPE, or none
(60_exceptions.md R127). -/
def check (i : Instr) (s : State) : Option ErrCode :=
  if needsCfg i && !s.cfgLegal then some .cfg
  else if badId i s then some .badId
  else if !stateAllows i s.gswState then some .state
  else if needsShape i && !(s.shape == s.cfg) then some .shape
  else none

/-- `check(w)` (60_exceptions.md R127): the failure of a command word, or none. -/
def checkWord (w : Word) (s : State) : Option ErrCode :=
  match decode w with
  | .illegal => some .illegalOpc
  | .reserved => some .rsvd
  | .command i => check i s

end Sys2Proof.Machine
end

