-- ==== Sys2Proof/Machine/Rom.lean ====
section
/-! DEFINITION. The three read-only tables: bit-reversal (40_transform.md R80), twiddles (R81) and twists
(41_frequency.md R92). Their words are round(2^30 * cos) and round(2^30 * sin) of multiples of 2*pi/16384, the finest
angle of any legal instance, computed with integers from the power series (notes/assumptions/11.md). -/

namespace Sys2Proof.Machine

/-! ### Bit reversal -/

/-- `rev_n(i)`: the low n bits of i in reverse order (40_transform.md R80). -/
def rev : (n : Nat) → (i : Nat) → Nat
  | 0, _ => 0
  | n + 1, i => (i % 2) * 2 ^ n + rev n (i / 2)

/-- BRROM[i] (40_transform.md R80). -/
def brrom (p : Params) (i : Nat) : Nat := rev p.logL i

/-! ### Cosine and sine in 64-bit fixed point -/

/-- 1 in the fixed-point format of the series: 64 fraction bits. -/
def fixOne : Nat := 2 ^ 64

/-- pi in that format, rounded down. -/
def fixPi : Nat := 57952155664616982739

/-- The power series of cos at x, nested: 1 - x^2/(1*2) * (1 - x^2/(3*4) * (...)), given x^2 and the number of terms
`n` still to come before the k-th. -/
def cosSeries (x2 : Nat) : (n : Nat) → (k : Nat) → Nat
  | 0, _ => fixOne
  | n + 1, k => fixOne - (x2 * cosSeries x2 n (k + 1) / fixOne) / ((2 * k - 1) * (2 * k))

/-- The power series of sin x / x, nested in the same way. -/
def sincSeries (x2 : Nat) : (n : Nat) → (k : Nat) → Nat
  | 0, _ => fixOne
  | n + 1, k => fixOne - (x2 * sincSeries x2 n (k + 1) / fixOne) / ((2 * k) * (2 * k + 1))

/-- The angle 2*pi*a/16384 in fixed point. -/
def fixAngle (a : Nat) : Nat := fixPi * a / 8192

/-- cos of 2*pi*a/16384 in fixed point, for a <= 4096 (the first quadrant): by the series of cos up to pi/4 and by the
series of sin of the complement above. -/
def fixCos (a : Nat) : Nat :=
  if a ≤ 2048 then
    let x := fixAngle a
    cosSeries (x * x / fixOne) 10 1
  else
    let x := fixAngle (4096 - a)
    x * sincSeries (x * x / fixOne) 10 1 / fixOne

/-- A fixed-point value as a Q2.30 word: rounded to the nearest integer. -/
def toQ30 (v : Nat) : Nat := (v + 2 ^ 33) / 2 ^ 34

/-- round(2^30 * cos(2*pi*a/16384)) for a <= 8192 (40_transform.md R81, 41_frequency.md R92). -/
def cosQ30 (a : Nat) : Int :=
  if a ≤ 4096 then Int.ofNat (toQ30 (fixCos a)) else - Int.ofNat (toQ30 (fixCos (8192 - a)))

/-- round(2^30 * sin(2*pi*a/16384)) for a <= 8192. -/
def sinQ30 (a : Nat) : Int :=
  if a ≤ 4096 then Int.ofNat (toQ30 (fixCos (4096 - a))) else Int.ofNat (toQ30 (fixCos (a - 4096)))

/-! ### The tables -/

/-- TWROM[i] (40_transform.md R81). The stage of size m holds words m-8 to 2m-9, so word i belongs to the stage of
size m, the largest power of two that is at most i + 8; even words are cosines, odd words sines, of 2*pi*j/m. The same
for every L (R82). -/
def twrom (i : Nat) : Int :=
  let m := 2 ^ Nat.log2 (i + 8)
  let k := i + 8 - m
  let a := k / 2 * (16384 / m)
  if k % 2 = 0 then cosQ30 a else sinQ30 a

/-- TWIST[j].c = round(2^30 * cos(pi*j/N)) (41_frequency.md R92). -/
def twistCos (p : Params) (j : Nat) : Int := cosQ30 (j * (8192 / p.n))

/-- TWIST[j].s = round(2^30 * sin(pi*j/N)) (41_frequency.md R92). -/
def twistSin (p : Params) (j : Nat) : Int := sinQ30 (j * (8192 / p.n))

/-- TWIST[j] as a ROM coefficient (00_scope.md R16). -/
def twist (p : Params) (j : Nat) : Cplx := ⟨twistCos p j, twistSin p j⟩

end Sys2Proof.Machine
end

