-- ==== Sys2Proof/Machine/Transform.lean ====
section
/-! DEFINITION. The transform engine and its commands FFT_FWD and FFT_INV (40_transform.md). -/

namespace Sys2Proof.Machine

/-- The direction of a transform (40_transform.md R84). -/
inductive Dir where
  /-- forward, exp(-2*pi*i*j/m) -/
  | fwd
  /-- inverse, exp(+2*pi*i*j/m) and the 1/L scale -/
  | inv
  deriving DecidableEq, Repr

/-- The twiddle of a stage of size m >= 8 as a ROM coefficient (40_transform.md R84). -/
def twiddle (m j : Nat) (dir : Dir) : Cplx :=
  let w : Cplx := ⟨twrom (m - 8 + 2 * j), twrom (m - 8 + 2 * j + 1)⟩
  match dir with
  | .fwd => conj w
  | .inv => w

/-- `rot(m, j, dir, v)` (40_transform.md R84). -/
def rot (dw m j : Nat) (dir : Dir) (v : Cplx) : Calc Cplx :=
  if m = 2 then Calc.exact v
  else if m = 4 then
    if j = 0 then Calc.exact v
    else
      match dir with
      | .fwd => Calc.cplx (Calc.exact v.im) (fit dw (-v.re))
      | .inv => Calc.cplx (fit dw (-v.im)) (Calc.exact v.re)
  else cmul30 dw (twiddle m j dir) v

/-- The butterfly of stage m at (base, j) (40_transform.md R85). -/
def butterfly (dw m : Nat) (dir : Dir) (y : List Cplx) (at_ : Nat × Nat) : Calc (List Cplx) :=
  let lo := at_.1 + at_.2
  let hi := at_.1 + at_.2 + m / 2
  let u := y.getD lo Cplx.zero
  let v := y.getD hi Cplx.zero
  let t := rot dw m at_.2 dir v
  let a := addc dw u t.val
  let b := subc dw u t.val
  ⟨(y.set lo a.val).set hi b.val, t.ovf || a.ovf || b.ovf⟩

/-- The (base, j) of the butterflies of stage m, in order (40_transform.md R85). -/
def butterflies (l m : Nat) : List (Nat × Nat) :=
  (List.range (l / m)).flatMap (fun b => (List.range (m / 2)).map (fun j => (b * m, j)))

/-- One stage (40_transform.md R85). -/
def stage (dw l : Nat) (dir : Dir) (y : List Cplx) (m : Nat) : Calc (List Cplx) :=
  Calc.loop (butterfly dw m dir) y (butterflies l m)

/-- The stage sizes 2, 4, ..., L. -/
def stageSizes (p : Params) : List Nat := (List.range p.logL).map (fun i => 2 ^ (i + 1))

/-- The bit-reversal permutation of the input (40_transform.md R85). -/
def permute (p : Params) (x : List Cplx) : List Cplx :=
  (List.range p.l).map (fun i => x.getD (brrom p i) Cplx.zero)

/-- The 1/L scale of the inverse (40_transform.md R85). -/
def scaleInv (p : Params) (x : Cplx) : Cplx := ⟨rnd x.re p.logL, rnd x.im p.logL⟩

/-- `fft(x, dir)` (40_transform.md R85). -/
def fft (p : Params) (dir : Dir) (x : List Cplx) : Calc (List Cplx) :=
  let y := Calc.loop (stage p.dw p.l dir) (permute p x) (stageSizes p)
  match dir with
  | .fwd => y
  | .inv => ⟨y.val.map (scaleInv p), y.ovf⟩

/-- `FREQ[f] <- fft(FREQ[f], dir)` (40_transform.md R86, R87). -/
def transformInPlace (dir : Dir) (f : Nat) (s : State) : Calc State :=
  let y := fft s.params dir (s.freqElem f)
  ⟨s.setFreq f y.val, y.ovf⟩

/-- FFT_FWD (40_transform.md R86). -/
def execFftFwd (f : FreqId) (s : State) : Host.Outcome State Fault Refusal :=
  conclude (check (.fftFwd f) s) s (transformInPlace .fwd f.toNat s)

/-- FFT_INV (40_transform.md R87). -/
def execFftInv (f : FreqId) (s : State) : Host.Outcome State Fault Refusal :=
  conclude (check (.fftInv f) s) s (transformInPlace .inv f.toNat s)

end Sys2Proof.Machine
end

