-- ==== Sys2Proof/Machine/Frequency.lean ====
section
/-! DEFINITION. The frequency-domain unit and its commands R2F_T, R2F_I, F2R, FCLEAR, FADDC and FMAC
(41_frequency.md). -/

namespace Sys2Proof.Machine

/-- Fold coefficients j and j+L of a ring element into one complex value at scale sh (41_frequency.md R94). -/
def fold (p : Params) (sh : Nat) (a : List Word) (j : Nat) : Calc Cplx :=
  Calc.cplx (fit p.dw (signed32 (a.getD j 0) * pow2 sh)) (fit p.dw (signed32 (a.getD (j + p.l) 0) * pow2 sh))

/-- Entry j of the folded and pre-twisted ring element (41_frequency.md R94). -/
def preTwist (p : Params) (sh : Nat) (a : List Word) (j : Nat) : Calc Cplx :=
  (fold p sh a j).andThen (cmul30 p.dw (twist p j))

/-- `r2f(a, sh)` (41_frequency.md R94). -/
def r2f (p : Params) (sh : Nat) (a : List Word) : Calc (List Cplx) :=
  (Calc.each (preTwist p sh a) (List.range p.l)).andThen (fft p .fwd)

/-- Entry j of a transformed element, un-twisted (41_frequency.md R95). -/
def unTwist (p : Params) (y : List Cplx) (j : Nat) : Calc Cplx :=
  cmul30 p.dw (conj (twist p j)) (y.getD j Cplx.zero)

/-- Round to torus: remove scale tsh, then reduce modulo 2^32 (41_frequency.md R95). -/
def toTorus (tsh : Nat) (v : Int) : Word := low32 (rnd v tsh)

/-- `f2r(F)` (41_frequency.md R95): the real parts give coefficients 0 to L-1, the imaginary parts L to N-1. -/
def f2r (p : Params) (tsh : Nat) (x : List Cplx) : Calc (List Word) :=
  let z := (fft p .inv x).andThen (fun y => Calc.each (unTwist p y) (List.range p.l))
  ⟨z.val.map (fun v => toTorus tsh v.re) ++ z.val.map (fun v => toTorus tsh v.im), z.ovf⟩

/-- `FREQ[f] <- r2f(RING[r], sh)` (41_frequency.md R96, R97). -/
def ringToFreq (f r sh : Nat) (s : State) : Calc State :=
  let y := r2f s.params sh (s.ringElem r)
  ⟨s.setFreq f y.val, y.ovf⟩

/-- `RING[r] <- f2r(FREQ[f])` (41_frequency.md R98). -/
def freqToRing (r f : Nat) (s : State) : Calc State :=
  let y := f2r s.params s.tsh (s.freqElem f)
  ⟨s.setRing r y.val, y.ovf⟩

/-- `FREQ[f] <- all (0, 0)` (41_frequency.md R99). -/
def clearFreq (f : Nat) (s : State) : State := s.setFreq f (List.replicate s.params.l Cplx.zero)

/-- The real part of every entry of FREQ[f] gets the torus constant c at scale TSH added (41_frequency.md R100). -/
def addConst (f : Nat) (c : Word) (s : State) : Calc State :=
  let k := fit s.params.dw (signed32 c * pow2 s.tsh)
  let y := Calc.each (fun x : Cplx => Calc.cplx (addw s.params.dw x.re k.val) (Calc.exact x.im)) (s.freqElem f)
  ⟨s.setFreq f y.val, k.ovf || y.ovf⟩

/-- One index of FMAC (41_frequency.md R101): the product is rounded once by psh bits and fitted, then added. -/
def mac (dw psh : Nat) (d a b : Cplx) : Calc Cplx := (cmulRnd dw psh a b).andThen (addc dw d)

/-- FMAC on elements d, a, b (41_frequency.md R101). Index j reads and writes only index j, and all three operands are
read before the write, so reading the elements first gives the rule's result for every overlap (R152). -/
def multiplyAccumulate (d a b : Nat) (s : State) : Calc State :=
  let ds := s.freqElem d
  let as := s.freqElem a
  let bs := s.freqElem b
  let y := Calc.each
    (fun j => mac s.params.dw s.psh (ds.getD j Cplx.zero) (as.getD j Cplx.zero) (bs.getD j Cplx.zero))
    (List.range s.params.l)
  ⟨s.setFreq d y.val, y.ovf⟩

/-- R2F_T (41_frequency.md R96). -/
def execR2fT (f : FreqId) (r : RingId) (s : State) : Host.Outcome State Fault Refusal :=
  conclude (check (.r2fT f r) s) s (ringToFreq f.toNat r.toNat s.tsh s)

/-- R2F_I (41_frequency.md R97). -/
def execR2fI (f : FreqId) (r : RingId) (s : State) : Host.Outcome State Fault Refusal :=
  conclude (check (.r2fI f r) s) s (ringToFreq f.toNat r.toNat s.dsh s)

/-- F2R (41_frequency.md R98). -/
def execF2r (r : RingId) (f : FreqId) (s : State) : Host.Outcome State Fault Refusal :=
  conclude (check (.f2r r f) s) s (freqToRing r.toNat f.toNat s)

/-- FCLEAR (41_frequency.md R99). -/
def execFclear (f : FreqId) (s : State) : Host.Outcome State Fault Refusal :=
  conclude (check (.fclear f) s) s (Calc.exact (clearFreq f.toNat s))

/-- FADDC (41_frequency.md R100): the constant is the register CONST. -/
def execFaddc (f : FreqId) (s : State) : Host.Outcome State Fault Refusal :=
  conclude (check (.faddc f) s) s (addConst f.toNat s.const s)

/-- FMAC (41_frequency.md R101). -/
def execFmac (d a b : FreqId) (s : State) : Host.Outcome State Fault Refusal :=
  conclude (check (.fmac d a b) s) s (multiplyAccumulate d.toNat a.toNat b.toNat s)

end Sys2Proof.Machine
end

