-- ==== Sys2Proof/Machine/Gsw.lean ====
section
/-! DEFINITION. Gadget decomposition and the encrypted-matrix store: DECOMP, GSW_ALLOC, GSW_FREE, GSW_CLEAR, GSW_ADDG,
GSW_TOF and GSW_FROMF (42_gsw.md). -/

namespace Sys2Proof.Machine

/-! ### The gadget and the digits -/

/-- h_j, the j-th gadget constant, as a number (42_gsw.md R105). -/
def gadget (bgbit j : Nat) : Nat := 2 ^ (32 - (j + 1) * bgbit)

/-- The sum of half a base times each gadget constant of the first n (42_gsw.md R106, the sum in OFFSET). -/
def halfDigits (bgbit : Nat) : (n : Nat) → Nat
  | 0 => 0
  | n + 1 => halfDigits bgbit n + 2 ^ (bgbit - 1) * gadget bgbit n

/-- OFFSET (42_gsw.md R106). -/
def digitOffset (ell bgbit : Nat) : Nat := (halfDigits bgbit ell + 2 ^ (32 - ell * bgbit - 1)) % 2 ^ 32

/-- t = (a + OFFSET) mod 2^32 (42_gsw.md R106). -/
def offsetWord (ell bgbit : Nat) (a : Word) : Nat := (a.toNat + digitOffset ell bgbit) % 2 ^ 32

/-- d[j] (42_gsw.md R106): the j-th field of BGBIT bits of t from the top, less half the base. -/
def digit (ell bgbit : Nat) (a : Word) (j : Nat) : Int :=
  Int.ofNat (offsetWord ell bgbit a / gadget bgbit j % 2 ^ bgbit) - pow2 (bgbit - 1)

/-- `digits(a)` (42_gsw.md R106). -/
def digits (ell bgbit : Nat) (a : Word) : List Int := (List.range ell).map (digit ell bgbit a)

/-- Write digit j of every coefficient of src to RING[r + j] as a 32-bit two's-complement word (42_gsw.md R110). -/
def writeDigit (r : Nat) (src : List Word) (s : State) (j : Nat) : State :=
  s.setRing (r + j) (src.map (fun a => low32 (digit s.ell s.bgbit a j)))

/-- Decompose RING[a] into RING[r] to RING[r + ELL - 1]; the source is read whole first (42_gsw.md R110). -/
def decompose (r a : Nat) (s : State) : State :=
  (List.range s.ell).foldl (writeDigit r (s.ringElem a)) s

/-! ### The rows in use -/

/-- The (row, slot) pairs in use: rows 0 to KPL-1, slots 0 to K, row by row (42_gsw.md R104). -/
def rowSlots (s : State) : List (Nat × Nat) :=
  (List.range s.kpl).flatMap (fun row => (List.range (s.k + 1)).map (fun slot => (row, slot)))

/-- `FREQ[GSWF(p,s)] <- all (0,0)` for every row and slot in use (42_gsw.md R113). -/
def clearStore (s : State) : State :=
  (rowSlots s).foldl (fun t at_ => clearFreq (t.params.gswf at_.1 at_.2) t) s

/-- The (j, i) pairs of GSW_ADDG: digits 0 to ELL-1, for each the mask and body indices 0 to K (42_gsw.md R114). -/
def diagonal (s : State) : List (Nat × Nat) :=
  (List.range s.ell).flatMap (fun j => (List.range (s.k + 1)).map (fun i => (j, i)))

/-- Add h_j to slot i of row (i, j), by the addition of FADDC (42_gsw.md R114). -/
def addGadgetAt (s : State) (at_ : Nat × Nat) : Calc State :=
  addConst (s.params.gswf (at_.2 * s.ell + at_.1) at_.2) (BitVec.ofNat 32 (gadget s.bgbit at_.1)) s

/-- The gadget added to the whole diagonal (42_gsw.md R114). -/
def addGadget (s : State) : Calc State := Calc.loop addGadgetAt s (diagonal s)

/-- `FREQ[GSWF(p,s)] <- r2f(RING[GSWR(p,s)], TSH)` for every row and slot in use (42_gsw.md R115). -/
def storeToFreq (s : State) : Calc State :=
  Calc.loop (fun t at_ => ringToFreq (t.params.gswf at_.1 at_.2) (t.params.gswr at_.1 at_.2) t.tsh t) s (rowSlots s)

/-- `RING[GSWR(p,s)] <- f2r(FREQ[GSWF(p,s)])` for every row and slot in use (42_gsw.md R116). -/
def storeToRing (s : State) : Calc State :=
  Calc.loop (fun t at_ => freqToRing (t.params.gswr at_.1 at_.2) (t.params.gswf at_.1 at_.2) t) s (rowSlots s)

/-- GSW_STATE <- g. -/
def setGswState (g : GswState) (s : State) : State := { s with gswState := g }

/-- GSW_SHAPE <- c. -/
def setShape (c : Cfg) (s : State) : State := { s with shape := c }

/-! ### Commands -/

/-- DECOMP (42_gsw.md R110). -/
def execDecomp (r a : RingId) (s : State) : Host.Outcome State Fault Refusal :=
  conclude (check (.decomp r a) s) s (Calc.exact (decompose r.toNat a.toNat s))

/-- GSW_ALLOC (42_gsw.md R111). -/
def execGswAlloc (s : State) : Host.Outcome State Fault Refusal :=
  conclude (check .gswAlloc s) s (Calc.exact (setGswState .alloc (setShape s.cfg s)))

/-- GSW_FREE (42_gsw.md R112). -/
def execGswFree (s : State) : Host.Outcome State Fault Refusal :=
  conclude (check .gswFree s) s (Calc.exact (setGswState .free (setShape { k := 0, ell := 0, bgbit := 0 } s)))

/-- GSW_CLEAR (42_gsw.md R113). -/
def execGswClear (s : State) : Host.Outcome State Fault Refusal :=
  conclude (check .gswClear s) s (Calc.exact (setGswState .ready (clearStore s)))

/-- GSW_ADDG (42_gsw.md R114). -/
def execGswAddg (s : State) : Host.Outcome State Fault Refusal :=
  conclude (check .gswAddg s) s (addGadget s)

/-- GSW_TOF (42_gsw.md R115). -/
def execGswTof (s : State) : Host.Outcome State Fault Refusal :=
  conclude (check .gswTof s) s ((storeToFreq s).andThen (fun t => Calc.exact (setGswState .ready t)))

/-- GSW_FROMF (42_gsw.md R116). -/
def execGswFromf (s : State) : Host.Outcome State Fault Refusal :=
  conclude (check .gswFromf s) s (storeToRing s)

end Sys2Proof.Machine
end

