-- ==== Sys2Proof/Machine/ExtProd.lean ====
section
/-! DEFINITION. The external product EXTPROD and the command NOP (43_extprod.md). -/

namespace Sys2Proof.Machine

/-- Step 1 of EXTPROD, "Decompose": slot i of the accumulator into the digit elements of rows i*ELL to i*ELL + ELL - 1,
exactly as DECOMP (43_extprod.md R120). -/
def decomposeAcc (s : State) : State :=
  (List.range (s.k + 1)).foldl (fun t i => decompose (t.params.digr (i * t.ell)) (t.params.acc i) t) s

/-- Step 2, "Transform digits": exactly R2F_I on every row in use (43_extprod.md R120). -/
def transformDigits (s : State) : Calc State :=
  Calc.loop (fun t row => ringToFreq (t.params.digf row) (t.params.digr row) t.dsh t) s (List.range s.kpl)

/-- Step 3, first half: the temporary accumulator cleared, exactly as FCLEAR (43_extprod.md R120). -/
def clearTmp (s : State) : State :=
  (List.range (s.k + 1)).foldl (fun t slot => clearFreq (t.params.tmpf slot) t) s

/-- Step 3, second half, "Multiply-accumulate": exactly FMAC for every row and slot, row by row (43_extprod.md R120). -/
def accumulateRows (s : State) : Calc State :=
  Calc.loop
    (fun t at_ => multiplyAccumulate (t.params.tmpf at_.2) (t.params.digf at_.1) (t.params.gswf at_.1 at_.2) t) s
    (rowSlots s)

/-- Step 4, "Convert back": exactly F2R on every slot (43_extprod.md R120). -/
def convertBack (s : State) : Calc State :=
  Calc.loop (fun t slot => freqToRing (t.params.acc slot) (t.params.tmpf slot) t) s (List.range (s.k + 1))

/-- The four steps of the external product in their fixed order (43_extprod.md R119, R120). -/
def externalProduct (s : State) : Calc State :=
  (((transformDigits (decomposeAcc s)).andThen (fun t => Calc.exact (clearTmp t))).andThen accumulateRows).andThen
    convertBack

/-- EXTPROD (43_extprod.md R120). -/
def execExtprod (s : State) : Host.Outcome State Fault Refusal :=
  conclude (check .extprod s) s (externalProduct s)

/-- NOP (43_extprod.md R122): nothing but the completion effects. -/
def execNop (s : State) : Host.Outcome State Fault Refusal :=
  conclude (check .nop s) s (Calc.exact s)

end Sys2Proof.Machine
end

