-- ==== Sys2Proof/Machine/Dispatch.lean ====
section
/-! DEFINITION. exec: the meaning of every command, one arm per constructor of Instr. -/

namespace Sys2Proof.Machine

def exec (i : Instr) (s : State) : Host.Outcome State Fault Refusal :=
  match i with
  | .nop => Sys2Proof.Machine.execNop s
  | .fftFwd f => Sys2Proof.Machine.execFftFwd f s
  | .fftInv f => Sys2Proof.Machine.execFftInv f s
  | .r2fT f r => Sys2Proof.Machine.execR2fT f r s
  | .r2fI f r => Sys2Proof.Machine.execR2fI f r s
  | .f2r r f => Sys2Proof.Machine.execF2r r f s
  | .fclear f => Sys2Proof.Machine.execFclear f s
  | .faddc f => Sys2Proof.Machine.execFaddc f s
  | .fmac d a b => Sys2Proof.Machine.execFmac d a b s
  | .decomp r a => Sys2Proof.Machine.execDecomp r a s
  | .gswAlloc => Sys2Proof.Machine.execGswAlloc s
  | .gswFree => Sys2Proof.Machine.execGswFree s
  | .gswClear => Sys2Proof.Machine.execGswClear s
  | .gswAddg => Sys2Proof.Machine.execGswAddg s
  | .gswTof => Sys2Proof.Machine.execGswTof s
  | .gswFromf => Sys2Proof.Machine.execGswFromf s
  | .extprod => Sys2Proof.Machine.execExtprod s

end Sys2Proof.Machine
end

