-- ==== Sys2Proof/WellFormed.lean ====
section
/-! DEFINITION. What is well formed: an instance (00_scope.md R7, R9) and a command's operands on an instance. -/

namespace Sys2Proof

/-- Whether an instance with these synthesis parameters exists (00_scope.md R7: the ranges, RSPACE <= 256 and
FSPACE <= 256). Outside them "no instance exists". -/
def Params.legal (p : Params) : Bool :=
  Nat.ble 3 p.logn && Nat.ble p.logn 13
    && (Nat.ble 1 p.kMax && Nat.ble p.kMax 15)
    && (Nat.ble 1 p.ellMax && Nat.ble p.ellMax 15)
    && (Nat.ble 1 p.ngr && Nat.ble p.ngr 255)
    && (Nat.ble 1 p.ngf && Nat.ble p.ngf 255)
    && (Nat.ble 33 p.dw && Nat.ble p.dw 64)
    && Nat.ble p.rspace 256
    && Nat.ble p.fspace 256

/-- Whether every operand of the command names an element of the instance: kind F below FSPACE, kinds R and Rl below
RSPACE (30_encoding.md R71). The run of an Rl operand depends on CFG.ELL as well and is checked at issue
(60_exceptions.md R127). -/
def Instr.wellFormed (p : Params) (i : Instr) : Bool :=
  i.freqOperands.all (fun f => Nat.blt f.toNat p.fspace)
    && i.ringOperands.all (fun r => Nat.blt r.toNat p.rspace)
    && i.runOperands.all (fun r => Nat.blt r.toNat p.rspace)

end Sys2Proof
end

