-- ==== Sys2Proof/Machine/Bus.lean ====
section
/-! DEFINITION. The host bus (20_memory.md R48 to R52, R66 to R69), the issue procedure (60_exceptions.md R129), the
engine's move (R132), and the events of the agenda. -/

namespace Sys2Proof.Machine

/-! ### The address map -/

/-- The register at an offset of the register block, if the offset is not reserved (10_state.md R32). -/
def regAt : (offset : Nat) → Option Reg
  | 0x000 => some .id
  | 0x004 => some .version
  | 0x008 => some .param0
  | 0x00C => some .param1
  | 0x010 => some .cfg
  | 0x014 => some .shift
  | 0x018 => some .const
  | 0x01C => some .gswShape
  | 0x020 => some .cmd
  | 0x024 => some .status
  | 0x028 => some .irqEn
  | 0x02C => some .cmdCount
  | _ => none

/-- Whether `count` bytes from `base` on hold the offset. -/
def within (base count a : Nat) : Bool := Nat.ble base a && Nat.blt a (base + count)

/-- What an offset names (20_memory.md R49, R54). -/
def target (p : Params) (a : Nat) : Target :=
  if a % 4 != 0 then .unmapped
  else if within 0x00000000 0x1000 a then
    match regAt a with
    | some r => .reg r
    | none => .unmapped
  else if within 0x00010000 (4 * p.twromWords) a then .twrom ((a - 0x00010000) / 4)
  else if within 0x00020000 (4 * p.l) a then .brrom ((a - 0x00020000) / 4)
  else if within 0x00030000 (8 * p.l) a then .twist ((a - 0x00030000) / 8) (a % 8 == 4)
  else if p.isRing a then .ring
  else if p.isFreq a then .freq
  else .unmapped

/-! ### Reads -/

/-- The word a register read returns (10_state.md R33 to R44). -/
def readReg (r : Reg) (s : State) : Word :=
  match r with
  | .id => 0x54484645
  | .version => 0x00000001
  | .param0 => param0Word s.params
  | .param1 => param1Word s.params
  | .cfg => s.cfg.word
  | .shift => s.shift.word
  | .const => s.const
  | .gswShape => s.shape.word
  | .cmd => s.lastCmd
  | .status => s.statusWord
  | .irqEn => s.irqEn.word
  | .cmdCount => s.cmdCount

/-- The word a read of offset a returns, or none for a bus error (20_memory.md R50, R51, R52, R66). -/
def readValue (a : Nat) (s : State) : Option Word :=
  match target s.params a with
  | .reg r => some (readReg r s)
  | .twrom i => some (low32 (twrom i))
  | .brrom i => some (BitVec.ofNat 32 (brrom s.params i))
  | .twist j false => some (low32 (twistCos s.params j))
  | .twist j true => some (low32 (twistSin s.params j))
  | .ring => if s.busy then none else some (s.word a)
  | .freq => if s.busy then none else some (s.word a)
  | .unmapped => none

/-- A host read (20_memory.md R66, R68): no side effect but the response, and BUS_ERR on a bus error (R56). -/
def busRead (a : Nat) (s : State) : State :=
  match readValue a s with
  | some w => respond (some w) s
  | none => busError false s

/-! ### Issue and completion -/

/-- The outcome of a command word at a state: its failure if it does not decode to a command, its meaning if it does. -/
def runWord (w : Word) (s : State) : Host.Outcome State Fault Refusal :=
  match decode w with
  | .illegal => .next (fail .illegalOpc s)
  | .reserved => .next (fail .rsvd s)
  | .command i => exec i s

/-- A CMD write while BUSY = 0 (60_exceptions.md R129): LAST_CMD <- w; a word that fails its checks fails at once, any
other is accepted and completes later. -/
def issue (w : Word) (s : State) : Host.Outcome State Fault Refusal :=
  let s1 := setLastCmd w s
  match checkWord w s1 with
  | some _ => runWord w s1
  | none => .next (accept w s1)

/-- A write of w to CMD (60_exceptions.md R129): dropped with CMD_OVR <- 1 while BUSY. -/
def writeCmd (w : Word) (s : State) : Host.Outcome State Fault Refusal :=
  if s.busy then .next (overrun s) else issue w s

/-- The engine moves: it completes the command in flight (60_exceptions.md R132); with none in flight it is idle
(R142). The command's meaning sees the state with nothing in flight, as at issue (notes/assumptions/8.md). -/
def engineMove (s : State) : Host.Outcome State Fault Refusal :=
  if s.busy then runWord s.curCmd (withdraw s) else .next s

/-! ### Writes -/

/-- A write to a register (10_state.md R37 to R46, 20_memory.md R66, R69). -/
def writeReg (r : Reg) (w : Word) (s : State) : Host.Outcome State Fault Refusal :=
  match r with
  | .cfg => .next (if s.busy then busError true s else respond none (setCfg (cfgOfWord w) s))
  | .shift => .next (if s.busy then busError true s else respond none (setShift (shiftOfWord w) s))
  | .const => .next (if s.busy then busError true s else respond none (setConst w s))
  | .cmd => writeCmd w (respond none s)
  | .status => .next (respond none (acknowledge w s))
  | .irqEn => .next (respond none (setIrqEn (irqEnOfWord w) s))
  | .id => .next (busError true s)
  | .version => .next (busError true s)
  | .param0 => .next (busError true s)
  | .param1 => .next (busError true s)
  | .gswShape => .next (busError true s)
  | .cmdCount => .next (busError true s)

/-- A host write to RING or FREQ (20_memory.md R51, R52, R69). -/
def writeMem (a : Nat) (w : Word) (s : State) : State :=
  if s.busy then busError true s else respond none (s.storeWords a [heldWord s.params a w])

/-- A host write of w to offset a (20_memory.md R66). -/
def busWrite (a : Nat) (w : Word) (s : State) : Host.Outcome State Fault Refusal :=
  match target s.params a with
  | .reg r => writeReg r w s
  | .twrom _ => .next (busError true s)
  | .brrom _ => .next (busError true s)
  | .twist _ _ => .next (busError true s)
  | .ring => .next (writeMem a w s)
  | .freq => .next (writeMem a w s)
  | .unmapped => .next (busError true s)

/-! ### Events -/

/-- A host access (20_memory.md R66); one that is not a 32-bit word gets a bus error (R54). -/
def hostAccess (a : Access) (s : State) : Host.Outcome State Fault Refusal :=
  match a with
  | .read addr => .next (busRead addr.toNat s)
  | .write addr data => busWrite addr.toNat data s
  | .narrow isWrite _ => .next (busError isWrite s)

/-- One event of the agenda. -/
def handle (e : Event) (s : State) : Host.Outcome State Fault Refusal :=
  match e with
  | .access a => hostAccess a s
  | .engine => engineMove s
  | .reset => .next (applyReset s)

/-- The next move: the head of the agenda, or with an empty agenda the engine's. Parameters that no instance has are
refused (00_scope.md R7, 93_implementation_defined.md U1, U2). -/
def nextMove (s : State) : Host.Outcome State Fault Refusal :=
  if s.params.legal then
    match s.agenda with
    | [] => engineMove s
    | e :: rest => handle e (setAgenda rest s)
  else .refused .noSuchInstance

end Sys2Proof.Machine
end

