-- ==== Sys2Proof/Machine/Step.lean ====
section
/-! DEFINITION. One step of THFE-CORE, and the state in which a given command is the next thing to run. -/

namespace Sys2Proof.Machine

/-- One atomic step: a host access, an engine move or a reset (20_memory.md R55, R60; notes/assumptions/5.md). -/
def step (s : State) : Host.Outcome State Fault Refusal := nextMove s

/-- `s` with the command word in flight and the engine moving next, so that the next step runs it. THFE-CORE fetches
nothing (10_state.md R22): the engine's command register CUR_CMD is where a step finds its command
(notes/assumptions/6.md). -/
def State.withFetchWord (s : State) (nbits w : Nat) : State := inFlight (tableWord nbits w) s

end Sys2Proof.Machine
end

