-- ==== Sys2Proof/Safety.lean ====
section
/-! DEFINITION. What counts as a safe state and a safe step: the invariants of the spec's prose, and the words claims use
for what a command leaves unchanged. -/

namespace Sys2Proof.Machine

/-! ### Invariants -/

/-- The memory list is in its one canonical form: offsets strictly rising, each the offset of a RING or FREQ word of the
instance, each word as memory holds it at its offset (20_memory.md R49, R52; notes/assumptions/3.md). -/
abbrev Memory.wf (p : Params) (m : Memory) : Prop :=
  m.Pairwise (fun c d => c.1 < d.1) ∧ ∀ c ∈ m, (p.isRing c.1 || p.isFreq c.1) = true ∧ heldWord p c.1 c.2 = c.2

/-- The state's memory is in canonical form. -/
abbrev State.memOk (s : State) : Prop := Memory.wf s.params s.mem

/-- The command in flight (10_state.md R22, 60_exceptions.md R129, R131): with BUSY = 0 there is none; with BUSY = 1 it
is LAST_CMD and passes every check, so it cannot fail. -/
abbrev State.flightOk (s : State) : Prop :=
  (s.busy = false → s.curCmd = 0) ∧ (s.busy = true → s.lastCmd = s.curCmd ∧ checkWord s.curCmd s = none)

/-- The error record (60_exceptions.md R126, R128): ERR is 1 exactly when ERRCODE holds a code. -/
abbrev State.errorOk (s : State) : Prop := s.err = s.errCode.isSome

/-- The shape of a constructed store (42_gsw.md R118): FREE has the shape 0; ALLOC and READY have a shape that
`cfg_legal` accepts, so (K + 1) * ELL rows that the instance has. -/
abbrev State.storeOk (s : State) : Prop :=
  (s.gswState = .free → s.shape = { k := 0, ell := 0, bgbit := 0 })
    ∧ (s.gswState ≠ .free →
        1 ≤ s.shape.k.toNat ∧ s.shape.k.toNat ≤ s.params.kMax
          ∧ 1 ≤ s.shape.ell.toNat ∧ s.shape.ell.toNat ≤ s.params.ellMax
          ∧ 1 ≤ s.shape.bgbit.toNat ∧ s.shape.ell.toNat * s.shape.bgbit.toNat ≤ 31)

/-! ### Causes of failure -/

/-- Whether a cause of failure applies to command word w, whatever the others say (60_exceptions.md R126, R127). -/
def FailureCause (w : Word) (s : State) : ErrCode → Prop
  | .illegalOpc => decode w = .illegal
  | .rsvd => decode w = .reserved
  | .cfg => ∃ i, decode w = .command i ∧ i ≠ .nop ∧ i ≠ .gswFree ∧ s.cfgLegal = false
  | .badId => ∃ i, decode w = .command i ∧
      ((∃ f ∈ i.freqOperands, s.params.fspace ≤ f.toNat) ∨ (∃ r ∈ i.ringOperands, s.params.rspace ≤ r.toNat)
        ∨ ∃ r ∈ i.runOperands, s.params.rspace ≤ r.toNat + s.ell - 1)
  | .state => ∃ i, decode w = .command i ∧
      ((i = .gswAlloc ∧ s.gswState ≠ .free)
        ∨ ((i = .gswFree ∨ i = .gswClear ∨ i = .gswTof) ∧ s.gswState = .free)
        ∨ ((i = .gswAddg ∨ i = .gswFromf ∨ i = .extprod) ∧ s.gswState ≠ .ready))
  | .shape => ∃ i, decode w = .command i ∧
      (i = .gswClear ∨ i = .gswTof ∨ i = .gswAddg ∨ i = .gswFromf ∨ i = .extprod) ∧ s.shape ≠ s.cfg

/-! ### Frames -/

/-- What every completed command has in common (60_exceptions.md R132, 20_memory.md R60): BUSY 0, DONE 1, CMD_COUNT one
more, no command in flight, and every register that no command writes as it was; STATUS.OVF is never cleared. -/
structure Completed (s t : State) : Prop where
  busy : t.busy = false
  done : t.done = true
  cmdCount : t.cmdCount = s.cmdCount + 1
  curCmd : t.curCmd = 0
  ovf : s.ovf = true → t.ovf = true
  params : t.params = s.params
  cfg : t.cfg = s.cfg
  shift : t.shift = s.shift
  const : t.const = s.const
  lastCmd : t.lastCmd = s.lastCmd
  err : t.err = s.err
  errCode : t.errCode = s.errCode
  cmdOvr : t.cmdOvr = s.cmdOvr
  busErr : t.busErr = s.busErr
  irqEn : t.irqEn = s.irqEn
  epoch : t.epoch = s.epoch
  agenda : t.agenda = s.agenda
  resp : t.resp = s.resp

/-- The command leaves GSW_STATE and GSW_SHAPE as they were. -/
abbrev SameStore (s t : State) : Prop := t.gswState = s.gswState ∧ t.shape = s.shape

/-- Whether an offset lies in ring element r. -/
abbrev InRing (p : Params) (r a : Nat) : Prop := p.ringAddr r 0 ≤ a ∧ a < p.ringAddr r 0 + 4 * p.n

/-- Whether an offset lies in frequency element f. -/
abbrev InFreq (p : Params) (f a : Nat) : Prop := p.freqAddr f 0 0 ≤ a ∧ a < p.freqAddr f 0 0 + 16 * p.l

/-- Every word of memory outside the given ring and frequency elements reads as before. -/
def SameMemoryBut (rings freqs : List Nat) (s t : State) : Prop :=
  ∀ a, (∀ r ∈ rings, ¬ InRing s.params r a) → (∀ f ∈ freqs, ¬ InFreq s.params f a) → t.word a = s.word a

/-! ### Tolerances -/

/-- The round-trip property with tolerance `eps`, the parameter EPS_RT: F2R of R2F_T of x is x, each coefficient within
`eps` torus units (41_frequency.md R103, 93_implementation_defined.md U8; notes/assumptions/15.md). -/
abbrev RoundTripWithin (eps : Nat) (p : Params) (tsh : Nat) (x : List Word) : Prop :=
  ∀ c < p.n, (signed32 ((f2r p tsh (r2f p tsh x).val).val.getD c 0 - x.getD c 0)).natAbs ≤ eps

/-- Coefficient c of the negacyclic product of a and d, modulo X^n + 1, over signed coefficients (41_frequency.md R102,
00_scope.md R19). -/
def negacyclic (n : Nat) (a d : List Word) (c : Nat) : Int :=
  ((List.range n).map (fun i =>
    if i ≤ c then signed32 (a.getD i 0) * signed32 (d.getD (c - i) 0)
    else -(signed32 (a.getD i 0) * signed32 (d.getD (n + c - i) 0)))).sum

/-- R2F_T of a, R2F_I of d, FCLEAR, FMAC, F2R: the product of a torus element and a digit polynomial through the
frequency domain (41_frequency.md R102). -/
def ringProduct (p : Params) (tsh dsh psh : Nat) (a d : List Word) : List Word :=
  let fa := (r2f p tsh a).val
  let fd := (r2f p dsh d).val
  let fp := (Calc.each (fun j => mac p.dw psh Cplx.zero (fd.getD j Cplx.zero) (fa.getD j Cplx.zero)) (List.range p.l)).val
  (f2r p tsh fp).val

/-- The multiplicative property with tolerance `eps`, the parameter EPS_MUL (41_frequency.md R102,
93_implementation_defined.md U9). -/
abbrev ProductWithin (eps : Nat) (p : Params) (tsh dsh psh : Nat) (a d : List Word) : Prop :=
  ∀ c < p.n, (signed32 ((ringProduct p tsh dsh psh a d).getD c 0 - low32 (negacyclic p.n a d c))).natAbs ≤ eps

end Sys2Proof.Machine
end

