-- ==== Sys2Proof/Certificates/Slice0/Obligations.lean ====
section
/-! DEFINITION. The statements about THFE-CORE that the provers prove. Each docstring names the rules of spec/ it
formalises; OBLIGATIONS.json lists them. -/

section
open Sys2Proof Sys2Proof.Machine

/-! ### Encoding -/

/-- Decoding an encoded command gives the command back, for every value of every operand (30_encoding.md R70, R73,
R75). -/
def Obligations.DecodeOfEncode : Prop := ∀ i : Instr, decode (encode i) = .command i

/-- A word that decodes to a command is that command's one encoding (30_encoding.md R70, R73, R75). -/
def Obligations.EncodeOfDecode : Prop := ∀ (w : Word) (i : Instr), decode w = .command i → encode i = w

/-- The 239 opcodes outside the map are E_ILLEGAL_OPC, and a listed opcode with a nonzero unused field is E_RSVD,
whatever the state (30_encoding.md R74, R75); the values of the two codes are 0x01 and 0x02, and a word that fails while
ERR = 0 leaves its code's value in ERRCODE (60_exceptions.md R126, R128). -/
def Obligations.IllegalAndReservedWords : Prop :=
  (∀ (w : Word) (s : State),
    (checkWord w s = some .illegalOpc ↔
      (0x09 ≤ (opcField w).toNat ∧ (opcField w).toNat ≤ 0x0F) ∨ (0x11 ≤ (opcField w).toNat ∧ (opcField w).toNat ≤ 0x1F)
        ∨ (0x26 ≤ (opcField w).toNat ∧ (opcField w).toNat ≤ 0x2F) ∨ 0x31 ≤ (opcField w).toNat)
    ∧ (checkWord w s = some .rsvd ↔
      ((opcField w).toNat ∈ [0x00, 0x20, 0x21, 0x22, 0x23, 0x24, 0x25, 0x30]
          ∧ (dField w ≠ 0 ∨ aField w ≠ 0 ∨ bField w ≠ 0))
        ∨ ((opcField w).toNat ∈ [0x01, 0x02, 0x06, 0x07] ∧ (aField w ≠ 0 ∨ bField w ≠ 0))
        ∨ ((opcField w).toNat ∈ [0x03, 0x04, 0x05, 0x10] ∧ bField w ≠ 0)))
  ∧ ErrCode.illegalOpc.bits = 0x01 ∧ ErrCode.rsvd.bits = 0x02
  ∧ ∀ (w : Word) (s : State) (c : ErrCode), checkWord w s = some c → s.err = false →
      ∃ t, runWord w s = .next t ∧ t.statusWord.extractLsb' 8 8 = c.bits

/-- Command words written out in the spec decode to the commands they stand for (95_test_vectors.md P1, P2, P4). -/
def Obligations.SampleWordsDecode : Prop :=
  decode 0x00000000 = .command .nop ∧ decode 0x031A1A00 = .command (.r2fT 26 26)
    ∧ decode 0x041B1B00 = .command (.r2fI 27 27) ∧ decode 0x061C0000 = .command (.fclear 28)
    ∧ decode 0x081C1B1A = .command (.fmac 28 27 26) ∧ decode 0x051C1C00 = .command (.f2r 28 28)
    ∧ decode 0x101A1A00 = .command (.decomp 26 26) ∧ decode 0x23000000 = .command .gswAddg
    ∧ decode 0x30000000 = .command .extprod

/-! ### Steps, issue and checks -/

/-- With a command in flight, the engine's step is that command's meaning. That a completion is exec, its checks
included, on the state with BUSY = 0 and CUR_CMD = 0 is the model's choice (notes/assumptions/8.md), and so is that the
engine moves when the agenda is empty or names it (notes/assumptions/5.md); the spec's part is that CUR_CMD holds the
command in flight and that the engine completes it (10_state.md R22, 60_exceptions.md R132). -/
def Obligations.StepRunsCommandInFlight : Prop :=
  ∀ (s : State) (i : Instr), s.params.legal = true → s.busy = true → decode s.curCmd = .command i →
    (s.agenda = [] → step s = exec i { s with busy := false, curCmd := 0 })
    ∧ ∀ rest, s.agenda = .engine :: rest → step s = exec i { s with busy := false, curCmd := 0, agenda := rest }

/-- The state made to run a word runs it in its very next step, with LAST_CMD that word (the model's choice of how a
command comes to run, notes/assumptions/6.md; 10_state.md R22). -/
def Obligations.StepRunsFetchedWord : Prop :=
  ∀ (s : State) (w : Nat) (i : Instr), s.params.legal = true → decodeTableWord 32 w = some i →
    step (s.withFetchWord 32 w)
      = exec i { s with lastCmd := BitVec.ofNat 32 w, busy := false, curCmd := 0 }

/-- The issue procedure, on every host write to CMD (60_exceptions.md R129): dropped with CMD_OVR while BUSY; else
LAST_CMD takes the word, a word that fails its checks is reported at once with the first code kept, any other is
accepted. The access itself is answered without error. CMD reads LAST_CMD, 0 at reset (10_state.md R40). -/
def Obligations.CmdWriteIssues : Prop :=
  (∀ (s : State) (w : Word) (rest : List Event), s.params.legal = true →
    s.agenda = .access (.write 0x020 w) :: rest →
    let s0 : State := { s with agenda := rest, resp := some { data := none, error := false } }
    (s.busy = true → step s = .next { s0 with cmdOvr := true })
    ∧ (s.busy = false → ∀ c, checkWord w s = some c →
        step s = .next { s0 with
          lastCmd := w, done := true, err := true, errCode := if s.err then s.errCode else some c })
    ∧ (s.busy = false → checkWord w s = none →
        step s = .next { s0 with lastCmd := w, busy := true, curCmd := w }))
  ∧ (∀ s : State, readValue 0x020 s = some s.lastCmd) ∧ State.reset.lastCmd = 0

/-- The machine never stops: every step of every instance answers a next state ("THFE-CORE raises no trap, no exception
and no asynchronous fault", 60_exceptions.md R125; "execution itself cannot fail", R131). -/
def Obligations.StepAlwaysAnswersNext : Prop :=
  ∀ s : State, s.params.legal = true → ∃ t, step s = .next t

/-- A command word reports the first cause that applies to it, in the order of the codes, and none when no cause applies
(60_exceptions.md R127). -/
def Obligations.FirstCauseIsReported : Prop :=
  ∀ (w : Word) (s : State),
    (∀ c, checkWord w s = some c ↔
      (FailureCause w s c ∧ ∀ d : ErrCode, d.bits.toNat < c.bits.toNat → ¬ FailureCause w s d))
    ∧ (checkWord w s = none ↔ ∀ c, ¬ FailureCause w s c)

/-- Which commands can fail with which code, and the code's value, which ERRCODE then reads if ERR was 0
(60_exceptions.md R126, R128). Commands are named by their opcodes. -/
def Obligations.CodesByCommand : Prop :=
  ∀ (i : Instr) (s : State) (c : ErrCode), check i s = some c →
    ((c = .cfg ∧ c.bits = 0x03 ∧ (opcField (encode i)).toNat ∉ [0x00, 0x21])
      ∨ (c = .badId ∧ c.bits = 0x04 ∧ (opcField (encode i)).toNat ∈ [1, 2, 3, 4, 5, 6, 7, 8, 0x10])
      ∨ (c = .state ∧ c.bits = 0x05 ∧ (opcField (encode i)).toNat ∈ [0x20, 0x21, 0x22, 0x23, 0x24, 0x25, 0x30])
      ∨ (c = .shape ∧ c.bits = 0x06 ∧ (opcField (encode i)).toNat ∈ [0x22, 0x23, 0x24, 0x25, 0x30]))
    ∧ ∃ t, exec i s = .next t ∧ (s.err = false → t.statusWord.extractLsb' 8 8 = c.bits)

/-- A command that fails its checks does nothing except its report: ERR, ERRCODE (the first failure's), DONE
(60_exceptions.md R125, R128, R131). -/
def Obligations.FailureIsPrecise : Prop :=
  ∀ (i : Instr) (s : State) (c : ErrCode), check i s = some c →
    exec i s = .next { s with err := true, errCode := if s.err then s.errCode else some c, done := true }

/-- The first error is kept until ERR is acknowledged (60_exceptions.md R128): a failure writes ERRCODE only when ERR
was 0, a W1C write to ERR clears both, a success changes neither, and the record has no say in what is accepted. -/
def Obligations.FirstErrorIsKept : Prop :=
  (∀ (s t : State) (w : Word) (c : ErrCode), checkWord w s = some c → runWord w s = .next t →
    t.err = true ∧ (s.err = false → t.errCode = some c) ∧ (s.err = true → t.errCode = s.errCode))
  ∧ (∀ (s : State) (w : Word) (rest : List Event), s.params.legal = true →
      s.agenda = .access (.write 0x024 w) :: rest → w.getLsbD 2 = true →
      ∃ t, step s = .next t ∧ t.err = false ∧ t.errCode = none)
  ∧ (∀ (s t : State) (w : Word), checkWord w s = none → runWord w s = .next t →
      t.err = s.err ∧ t.errCode = s.errCode)
  ∧ (∀ (s : State) (w : Word) (e : Bool) (c : Option ErrCode),
      checkWord w { s with err := e, errCode := c } = checkWord w s)

/-- `cfg_legal()` (60_exceptions.md R130): the six conditions on CFG and SHIFT, and what they are for: every gadget step
lies between 2 and 2^31, the torus fold fits in DW bits, the digit shift stays inside the word. -/
def Obligations.CfgLegalConditions : Prop :=
  ∀ s : State, (s.cfgLegal = true ↔
      1 ≤ s.cfg.k.toNat ∧ s.cfg.k.toNat ≤ s.params.kMax ∧ 1 ≤ s.cfg.ell.toNat ∧ s.cfg.ell.toNat ≤ s.params.ellMax
        ∧ 1 ≤ s.cfg.bgbit.toNat ∧ s.cfg.ell.toNat * s.cfg.bgbit.toNat ≤ 31
        ∧ s.shift.tsh.toNat ≤ s.params.dw - 33 ∧ s.shift.dsh.toNat ≤ s.params.dw - 1)
    ∧ (s.params.legal = true → s.cfgLegal = true →
      (∀ j < s.ell, 2 ≤ gadget s.bgbit j ∧ gadget s.bgbit j ≤ 2 ^ 31)
        ∧ (∀ w : Word, inRange s.params.dw (signed32 w * 2 ^ s.shift.tsh.toNat) = true)
        ∧ s.shift.dsh.toNat < s.params.dw)

/-! ### What each command does, and what it leaves alone -/

/-- NOP succeeds whatever GSW_STATE, CFG and SHIFT are, and changes nothing but the completion effects; any other word of
opcode 0x00 is E_RSVD (43_extprod.md R122). -/
def Obligations.NopCompletes : Prop :=
  (∀ s : State, exec .nop s
      = .next { s with busy := false, done := true, cmdCount := s.cmdCount + 1, curCmd := 0 })
  ∧ decode 0x00000000 = .command .nop
  ∧ ∀ (w : Word) (s : State), opcField w = 0x00 → w ≠ 0x00000000 → checkWord w s = some .rsvd

/-- FFT_FWD and FFT_INV complete: FREQ[f] becomes its transform, OVF takes the transform's overflow, nothing else
changes (40_transform.md R86, R87). -/
def Obligations.TransformCommandsComplete : Prop :=
  ∀ (s : State) (f : FreqId) (dir : Dir), s.params.legal = true → s.cfgLegal = true → f.toNat < s.params.fspace →
    ∃ t, exec (match dir with | .fwd => .fftFwd f | .inv => .fftInv f) s = .next t
      ∧ t.freqElem f.toNat = (fft s.params dir (s.freqElem f.toNat)).val
      ∧ t.ovf = (s.ovf || (fft s.params dir (s.freqElem f.toNat)).ovf)
      ∧ Completed s t ∧ SameStore s t ∧ SameMemoryBut [] [f.toNat] s t

/-- R2F_T and R2F_I complete: FREQ[f] becomes the spectrum of RING[r] at scale TSH or DSH, nothing else changes
(41_frequency.md R96, R97). -/
def Obligations.RingToFrequencyCompletes : Prop :=
  ∀ (s : State) (f : FreqId) (r : RingId), s.params.legal = true → s.cfgLegal = true →
    f.toNat < s.params.fspace → r.toNat < s.params.rspace →
    ∀ i sh, (i = .r2fT f r ∧ sh = s.shift.tsh.toNat) ∨ (i = .r2fI f r ∧ sh = s.shift.dsh.toNat) →
    ∃ t, exec i s = .next t
      ∧ t.freqElem f.toNat = (r2f s.params sh (s.ringElem r.toNat)).val
      ∧ t.ovf = (s.ovf || (r2f s.params sh (s.ringElem r.toNat)).ovf)
      ∧ Completed s t ∧ SameStore s t ∧ SameMemoryBut [] [f.toNat] s t

/-- F2R completes: RING[r] becomes the ring form of FREQ[f] at scale TSH, nothing else changes (41_frequency.md R98). -/
def Obligations.FrequencyToRingCompletes : Prop :=
  ∀ (s : State) (r : RingId) (f : FreqId), s.params.legal = true → s.cfgLegal = true →
    r.toNat < s.params.rspace → f.toNat < s.params.fspace →
    ∃ t, exec (.f2r r f) s = .next t
      ∧ t.ringElem r.toNat = (f2r s.params s.shift.tsh.toNat (s.freqElem f.toNat)).val
      ∧ t.ovf = (s.ovf || (f2r s.params s.shift.tsh.toNat (s.freqElem f.toNat)).ovf)
      ∧ Completed s t ∧ SameStore s t ∧ SameMemoryBut [r.toNat] [] s t

/-- FCLEAR completes: every entry of FREQ[f] becomes (0, 0), OVF is not affected, nothing else changes
(41_frequency.md R99). -/
def Obligations.FclearCompletes : Prop :=
  ∀ (s : State) (f : FreqId), s.params.legal = true → s.cfgLegal = true → f.toNat < s.params.fspace →
    ∃ t, exec (.fclear f) s = .next t
      ∧ (∀ j < s.params.l, t.freqEntry f.toNat j = ⟨0, 0⟩)
      ∧ t.ovf = s.ovf ∧ Completed s t ∧ SameStore s t ∧ SameMemoryBut [] [f.toNat] s t

/-- FADDC completes: CONST * 2^TSH is added to the real part of every entry of FREQ[f], wrapping to DW bits; the constant
itself never overflows; OVF records an addition out of range (41_frequency.md R100). -/
def Obligations.FaddcCompletes : Prop :=
  ∀ (s : State) (f : FreqId), s.params.legal = true → s.cfgLegal = true → f.toNat < s.params.fspace →
    let sum : Nat → Int := fun j => (s.freqEntry f.toNat j).re + signed32 s.const * 2 ^ s.shift.tsh.toNat
    ∃ t, exec (.faddc f) s = .next t
      ∧ (∀ j < s.params.l, t.freqEntry f.toNat j = ⟨sext s.params.dw (sum j), (s.freqEntry f.toNat j).im⟩)
      ∧ (t.ovf = true ↔ s.ovf = true ∨ ∃ j < s.params.l, inRange s.params.dw (sum j) = false)
      ∧ Completed s t ∧ SameStore s t ∧ SameMemoryBut [] [f.toNat] s t

/-- FMAC completes, for every overlap of its operands: at each index the exact product of the entries of a and b before
the command, rounded once by PSH and fitted, is added to the entry of d; OVF records a fit or an addition out of range
(41_frequency.md R101, 70_reset_and_hazards.md R152). -/
def Obligations.FmacCompletes : Prop :=
  ∀ (s : State) (d a b : FreqId), s.params.legal = true → s.cfgLegal = true →
    d.toNat < s.params.fspace → a.toNat < s.params.fspace → b.toNat < s.params.fspace →
    let dw := s.params.dw
    let x : Nat → Cplx := s.freqEntry a.toNat
    let y : Nat → Cplx := s.freqEntry b.toNat
    let pr : Nat → Int := fun j => rnd ((x j).re * (y j).re - (x j).im * (y j).im) s.shift.psh.toNat
    let pi : Nat → Int := fun j => rnd ((x j).re * (y j).im + (x j).im * (y j).re) s.shift.psh.toNat
    let sr : Nat → Int := fun j => (s.freqEntry d.toNat j).re + sext dw (pr j)
    let si : Nat → Int := fun j => (s.freqEntry d.toNat j).im + sext dw (pi j)
    ∃ t, exec (.fmac d a b) s = .next t
      ∧ (∀ j < s.params.l, t.freqEntry d.toNat j = ⟨sext dw (sr j), sext dw (si j)⟩)
      ∧ (t.ovf = true ↔ s.ovf = true ∨ ∃ j < s.params.l, inRange dw (pr j) = false ∨ inRange dw (pi j) = false
          ∨ inRange dw (sr j) = false ∨ inRange dw (si j) = false)
      ∧ Completed s t ∧ SameStore s t ∧ SameMemoryBut [] [d.toNat] s t

/-- DECOMP completes, also when the source lies inside the destination: digit j of every coefficient of RING[a] before
the command stands in RING[r + j] as a two's-complement word, nothing else changes (42_gsw.md R110). -/
def Obligations.DecompCompletes : Prop :=
  ∀ (s : State) (r a : RingId), s.params.legal = true → s.cfgLegal = true →
    r.toNat + s.ell - 1 < s.params.rspace → a.toNat < s.params.rspace →
    ∃ t, exec (.decomp r a) s = .next t
      ∧ (∀ j < s.ell, ∀ c < s.params.n,
          signed32 (t.ringCoef (r.toNat + j) c) = digit s.ell s.bgbit (s.ringCoef a.toNat c) j)
      ∧ t.ovf = s.ovf ∧ Completed s t ∧ SameStore s t
      ∧ SameMemoryBut ((List.range s.ell).map (fun j => r.toNat + j)) [] s t

/-- GSW_ALLOC completes in FREE and records CFG's shape; GSW_FREE completes in ALLOC and READY, whatever CFG is, and
forgets it; neither writes an element (42_gsw.md R108, R111, R112). GSW_SHAPE reads in CFG's layout and is 0 at reset
(10_state.md R41). -/
def Obligations.GswAllocAndFreeComplete : Prop :=
  (∀ s : State, s.cfgLegal = true → s.gswState = .free →
    ∃ t, exec .gswAlloc s = .next t ∧ t.gswState = .alloc ∧ t.shape = s.cfg
      ∧ t.ovf = s.ovf ∧ Completed s t ∧ SameMemoryBut [] [] s t)
  ∧ (∀ s : State, s.gswState ≠ .free →
    ∃ t, exec .gswFree s = .next t ∧ t.gswState = .free ∧ t.shape.word = 0
      ∧ t.ovf = s.ovf ∧ Completed s t ∧ SameMemoryBut [] [] s t)
  ∧ (∀ s : State, ∃ v, readValue 0x01C s = some v ∧ v.extractLsb' 0 4 = s.shape.k ∧ v.extractLsb' 8 4 = s.shape.ell
      ∧ v.extractLsb' 16 5 = s.shape.bgbit ∧ v &&& 0xFFE0F0F0 = 0)
  ∧ State.reset.shape.word = 0

/-- GSW_CLEAR completes: every row and slot in use becomes all (0, 0), the state READY, and no other element changes, the
rows and slots outside the shape among them (42_gsw.md R104, R108, R113). -/
def Obligations.GswClearCompletes : Prop :=
  ∀ s : State, s.params.legal = true → s.cfgLegal = true → s.gswState ≠ .free → s.shape = s.cfg →
    ∃ t, exec .gswClear s = .next t
      ∧ (∀ row < s.kpl, ∀ slot ≤ s.k, ∀ j < s.params.l, t.freqEntry (s.params.gswf row slot) j = ⟨0, 0⟩)
      ∧ t.gswState = .ready ∧ t.shape = s.shape ∧ t.ovf = s.ovf ∧ Completed s t
      ∧ SameMemoryBut [] ((rowSlots s).map (fun x => s.params.gswf x.1 x.2)) s t

/-- GSW_ADDG completes: h_j * 2^TSH is added to the real part of every entry of slot i of row (i, j), and no other slot
changes (42_gsw.md R105, R108, R114). -/
def Obligations.GswAddgCompletes : Prop :=
  ∀ s : State, s.params.legal = true → s.cfgLegal = true → s.gswState = .ready → s.shape = s.cfg →
    let id : Nat → Nat → Nat := fun i j => s.params.gswf (i * s.ell + j) i
    let sum : Nat → Nat → Nat → Int := fun i j e =>
      (s.freqEntry (id i j) e).re
        + signed32 (BitVec.ofNat 32 (2 ^ (32 - (j + 1) * s.bgbit))) * 2 ^ s.shift.tsh.toNat
    ∃ t, exec .gswAddg s = .next t
      ∧ (∀ i ≤ s.k, ∀ j < s.ell, ∀ e < s.params.l,
          t.freqEntry (id i j) e = ⟨sext s.params.dw (sum i j e), (s.freqEntry (id i j) e).im⟩)
      ∧ (t.ovf = true ↔ s.ovf = true
          ∨ ∃ i ≤ s.k, ∃ j < s.ell, ∃ e < s.params.l, inRange s.params.dw (sum i j e) = false)
      ∧ Completed s t ∧ SameStore s t ∧ SameMemoryBut [] ((diagonal s).map (fun x => id x.2 x.1)) s t

/-- GSW_TOF completes: every slot in use becomes the spectrum of its ring form at scale TSH, the state READY, and no other
element changes (42_gsw.md R104, R108, R115). -/
def Obligations.GswTofCompletes : Prop :=
  ∀ s : State, s.params.legal = true → s.cfgLegal = true → s.gswState ≠ .free → s.shape = s.cfg →
    let y : Nat → Nat → Calc (List Cplx) := fun row slot =>
      r2f s.params s.shift.tsh.toNat (s.ringElem (s.params.gswr row slot))
    ∃ t, exec .gswTof s = .next t
      ∧ (∀ row < s.kpl, ∀ slot ≤ s.k, t.freqElem (s.params.gswf row slot) = (y row slot).val)
      ∧ (t.ovf = true ↔ s.ovf = true ∨ ∃ row < s.kpl, ∃ slot ≤ s.k, (y row slot).ovf = true)
      ∧ t.gswState = .ready ∧ t.shape = s.shape ∧ Completed s t
      ∧ SameMemoryBut [] ((rowSlots s).map (fun x => s.params.gswf x.1 x.2)) s t

/-- GSW_FROMF completes: the ring form of every slot in use becomes the ring element of its spectrum at scale TSH, and no
other element changes (42_gsw.md R104, R108, R116). -/
def Obligations.GswFromfCompletes : Prop :=
  ∀ s : State, s.params.legal = true → s.cfgLegal = true → s.gswState = .ready → s.shape = s.cfg →
    let y : Nat → Nat → Calc (List Word) := fun row slot =>
      f2r s.params s.shift.tsh.toNat (s.freqElem (s.params.gswf row slot))
    ∃ t, exec .gswFromf s = .next t
      ∧ (∀ row < s.kpl, ∀ slot ≤ s.k, t.ringElem (s.params.gswr row slot) = (y row slot).val)
      ∧ (t.ovf = true ↔ s.ovf = true ∨ ∃ row < s.kpl, ∃ slot ≤ s.k, (y row slot).ovf = true)
      ∧ Completed s t ∧ SameStore s t
      ∧ SameMemoryBut ((rowSlots s).map (fun x => s.params.gswr x.1 x.2)) [] s t

/-- EXTPROD completes (43_extprod.md R119 to R121): DIGR holds the digits of the accumulator before it, DIGF their
spectra, TMPF the products of row p's digit spectrum with slot s of row p summed over the rows in order, ACC the ring form
of TMPF; OVF records an overflow of any of these; no other element changes. -/
def Obligations.ExtprodCompletes : Prop :=
  ∀ s : State, s.params.legal = true → s.cfgLegal = true → s.gswState = .ready → s.shape = s.cfg →
    let p := s.params
    ∃ t, exec .extprod s = .next t ∧
      let spectrum : Nat → Calc (List Cplx) := fun row => r2f p s.shift.dsh.toNat (t.ringElem (p.digr row))
      let sum : Nat → Nat → Calc Cplx := fun slot e =>
        Calc.loop (fun x row => mac p.dw s.shift.psh.toNat x (t.freqEntry (p.digf row) e)
          (s.freqEntry (p.gswf row slot) e)) ⟨0, 0⟩ (List.range s.kpl)
      let result : Nat → Calc (List Word) := fun slot => f2r p s.shift.tsh.toNat (t.freqElem (p.tmpf slot))
      (∀ i ≤ s.k, ∀ j < s.ell, ∀ c < p.n,
          signed32 (t.ringCoef (p.digr (i * s.ell + j)) c) = digit s.ell s.bgbit (s.ringCoef (p.acc i) c) j)
      ∧ (∀ row < s.kpl, t.freqElem (p.digf row) = (spectrum row).val)
      ∧ (∀ slot ≤ s.k, ∀ e < p.l, t.freqEntry (p.tmpf slot) e = (sum slot e).val)
      ∧ (∀ slot ≤ s.k, t.ringElem (p.acc slot) = (result slot).val)
      ∧ (t.ovf = true ↔ s.ovf = true ∨ (∃ row < s.kpl, (spectrum row).ovf = true)
          ∨ (∃ slot ≤ s.k, ∃ e < p.l, (sum slot e).ovf = true) ∨ ∃ slot ≤ s.k, (result slot).ovf = true)
      ∧ Completed s t ∧ SameStore s t
      ∧ SameMemoryBut ((List.range (s.k + 1)).map p.acc ++ (List.range s.kpl).map p.digr)
          ((List.range s.kpl).map p.digf ++ (List.range (s.k + 1)).map p.tmpf) s t

/-! ### Invariants -/

/-- Every step keeps memory in its canonical form: inside the address map, every FREQ component a sign-extended DW-bit
value (10_state.md R24, 20_memory.md R49, R52; the list form is the model's choice, notes/assumptions/3.md). -/
def Obligations.StepKeepsMemoryCanonical : Prop :=
  ∀ s t : State, s.memOk → step s = .next t → t.memOk

/-- Every step keeps the protocol of the command in flight: CUR_CMD is 0 when idle; while BUSY it is LAST_CMD and passes
every check, so that no accepted command can fail (10_state.md R22, 60_exceptions.md R129, R131, R132). -/
def Obligations.StepKeepsFlightProtocol : Prop :=
  ∀ s t : State, s.flightOk → step s = .next t → t.flightOk

/-- Every step keeps ERR and ERRCODE together (60_exceptions.md R126, R128). -/
def Obligations.StepKeepsErrorRecord : Prop :=
  ∀ s t : State, s.errorOk → step s = .next t → t.errorOk

/-- Every step keeps the shape of the store legal, so no store of another row count ever exists (42_gsw.md R118). -/
def Obligations.StepKeepsStoreShape : Prop :=
  ∀ s t : State, s.storeOk → step s = .next t → t.storeOk

/-- The four invariants hold right after reset, on every instance (10_state.md R47; the empty memory list is the model's
choice, notes/assumptions/3.md). -/
def Obligations.InvariantsHoldAtReset : Prop :=
  (State.reset.memOk ∧ State.reset.flightOk ∧ State.reset.errorOk ∧ State.reset.storeOk)
  ∧ ∀ (p : Params) (epoch : Nat), (State.afterReset p epoch).memOk ∧ (State.afterReset p epoch).flightOk
      ∧ (State.afterReset p epoch).errorOk ∧ (State.afterReset p epoch).storeOk

/-- GSW_STATE changes only by the completion of the lifecycle commands, as their table says, or by reset
(10_state.md R29, 42_gsw.md R108). -/
def Obligations.GswStateTransitions : Prop :=
  ∀ s t : State, step s = .next t → t.gswState ≠ s.gswState →
    (∃ rest, s.agenda = .reset :: rest)
    ∨ (s.busy = true ∧ ∃ i, decode s.curCmd = .command i ∧
        ((i = .gswAlloc ∧ s.gswState = .free ∧ t.gswState = .alloc)
          ∨ (i = .gswFree ∧ s.gswState ≠ .free ∧ t.gswState = .free)
          ∨ ((i = .gswClear ∨ i = .gswTof) ∧ s.gswState = .alloc ∧ t.gswState = .ready)))

/-! ### The host bus -/

/-- While BUSY, reads and writes of RING and FREQ and writes of CFG, SHIFT and CONST get a bus error response and have no
other effect (20_memory.md R69). -/
def Obligations.BusyAccessesAreRefused : Prop :=
  ∀ (s : State) (rest : List Event) (a w : Word), s.params.legal = true → s.busy = true →
    (s.agenda = .access (.read a) :: rest → (s.params.isRing a.toNat || s.params.isFreq a.toNat) = true →
      step s = .next { s with agenda := rest, busErr := true, resp := some { data := some 0, error := true } })
    ∧ (s.agenda = .access (.write a w) :: rest →
      (s.params.isRing a.toNat || s.params.isFreq a.toNat) = true ∨ a = 0x010 ∨ a = 0x014 ∨ a = 0x018 →
      step s = .next { s with agenda := rest, busErr := true, resp := some { data := none, error := true } })

/-- No read has a side effect, and its response is the value at its offset: a read that has a value answers it without
error and changes nothing else; any other answers data 0 with a bus error and changes nothing but BUS_ERR (20_memory.md
R56, R66, R68). -/
def Obligations.ReadsHaveNoSideEffect : Prop :=
  ∀ (s : State) (rest : List Event) (a : Word), s.params.legal = true → s.agenda = .access (.read a) :: rest →
    (∀ w, readValue a.toNat s = some w →
      step s = .next { s with agenda := rest, resp := some { data := some w, error := false } })
    ∧ (readValue a.toNat s = none →
      step s = .next { s with agenda := rest, busErr := true, resp := some { data := some 0, error := true } })

/-- The host reads and writes RING[r][c] at its offset while BUSY = 0, a write changing that word alone, and is refused
while BUSY = 1 (20_memory.md R51). -/
def Obligations.RingWordsReadAndWrite : Prop :=
  ∀ (s : State) (rest : List Event) (r c : Nat) (w : Word), s.params.legal = true → s.memOk →
    r < s.params.rspace → c < s.params.n →
    let a : Word := BitVec.ofNat 32 (0x01000000 + 4 * (r * s.params.n + c))
    (s.busy = false → s.agenda = .access (.read a) :: rest →
      step s = .next { s with agenda := rest, resp := some { data := some (s.ringCoef r c), error := false } })
    ∧ (s.busy = false → s.agenda = .access (.write a w) :: rest →
      ∃ m, step s = .next { s with agenda := rest, mem := m, resp := some { data := none, error := false } }
        ∧ State.ringCoef { s with mem := m } r c = w
        ∧ ∀ b, b ≠ a.toNat → State.word { s with mem := m } b = s.word b)
    ∧ (s.busy = true → s.agenda = .access (.read a) :: rest →
      step s = .next { s with agenda := rest, busErr := true, resp := some { data := some 0, error := true } })
    ∧ (s.busy = true → s.agenda = .access (.write a w) :: rest →
      step s = .next { s with agenda := rest, busErr := true, resp := some { data := none, error := true } })

/-- The host's view of FREQ (20_memory.md R52): word q of an entry is a half of its component's 64-bit sign extension; a
write replaces that half, the component becomes the DW-bit sign extension of the mixed value, the other component and
every other word stay; OVF is not set; both are refused while BUSY. -/
def Obligations.FreqWordsReadAndWrite : Prop :=
  ∀ (s : State) (rest : List Event) (f j q : Nat) (w : Word), s.params.legal = true → s.memOk →
    f < s.params.fspace → j < s.params.l → q < 4 →
    let a : Word := BitVec.ofNat 32 (0x02000000 + 16 * (f * s.params.l + j) + 4 * q)
    let x : Cplx := s.freqEntry f j
    let v : BitVec 64 := BitVec.ofInt 64 (if q < 2 then x.re else x.im)
    let v' : BitVec 64 := if q % 2 = 0 then v.extractLsb' 32 32 ++ w else w ++ v.extractLsb' 0 32
    let new : Int := sext s.params.dw v'.toInt
    (s.busy = false → s.agenda = .access (.read a) :: rest →
      step s = .next { s with
        agenda := rest
        resp := some { data := some (if q % 2 = 0 then v.extractLsb' 0 32 else v.extractLsb' 32 32), error := false } })
    ∧ (s.busy = false → s.agenda = .access (.write a w) :: rest →
      ∃ m, step s = .next { s with agenda := rest, mem := m, resp := some { data := none, error := false } }
        ∧ State.freqEntry { s with mem := m } f j = (if q < 2 then ⟨new, x.im⟩ else ⟨x.re, new⟩)
        ∧ ∀ b, b ≠ a.toNat → State.word { s with mem := m } b = s.word b)
    ∧ (s.busy = true → s.agenda = .access (.read a) :: rest →
      step s = .next { s with agenda := rest, busErr := true, resp := some { data := some 0, error := true } })
    ∧ (s.busy = true → s.agenda = .access (.write a w) :: rest →
      step s = .next { s with agenda := rest, busErr := true, resp := some { data := none, error := true } })

/-- Accesses that get a bus error whatever the state: an unaligned or narrow access (20_memory.md R54), an offset outside
every region (R49, R57), a reserved offset of the register block, and a write to a read-only register (10_state.md R46).
The response changes nothing but BUS_ERR, and a read returns 0 (20_memory.md R68). -/
def Obligations.BadAccessesGetBusErrors : Prop :=
  ∀ (s : State) (rest : List Event) (a w : Word), s.params.legal = true →
    let outside : Prop := 0x1000 ≤ a.toNat
      ∧ ¬ (0x00010000 ≤ a.toNat ∧ a.toNat < 0x00010000 + 4 * s.params.twromWords)
      ∧ ¬ (0x00020000 ≤ a.toNat ∧ a.toNat < 0x00020000 + 4 * s.params.l)
      ∧ ¬ (0x00030000 ≤ a.toNat ∧ a.toNat < 0x00030000 + 8 * s.params.l)
      ∧ ¬ (0x01000000 ≤ a.toNat ∧ a.toNat < 0x01000000 + 4 * (s.params.rspace * s.params.n))
      ∧ ¬ (0x02000000 ≤ a.toNat ∧ a.toNat < 0x02000000 + 16 * (s.params.fspace * s.params.l))
    let bad : Prop := a.toNat % 4 ≠ 0 ∨ (0x030 ≤ a.toNat ∧ a.toNat < 0x1000) ∨ outside
    (s.agenda = .access (.read a) :: rest → bad →
      step s = .next { s with agenda := rest, busErr := true, resp := some { data := some 0, error := true } })
    ∧ (s.agenda = .access (.write a w) :: rest → bad ∨ a.toNat ∈ [0x000, 0x004, 0x008, 0x00C, 0x01C, 0x02C] →
      step s = .next { s with agenda := rest, busErr := true, resp := some { data := none, error := true } })
    ∧ (s.agenda = .access (.narrow false a) :: rest →
      step s = .next { s with agenda := rest, busErr := true, resp := some { data := some 0, error := true } })
    ∧ (s.agenda = .access (.narrow true a) :: rest →
      step s = .next { s with agenda := rest, busErr := true, resp := some { data := none, error := true } })

/-- The ROM words the host reads, at any time, also while BUSY, and with no effect (20_memory.md R50); writes to them are
refused (R66). -/
def Obligations.RomsAreReadOnly : Prop :=
  ∀ (s : State) (rest : List Event) (a : Word), s.params.legal = true →
    (∀ v : Word,
      (∃ i < s.params.twromWords, a.toNat = 0x00010000 + 4 * i ∧ v = BitVec.ofInt 32 (twrom i))
        ∨ (∃ i < s.params.l, a.toNat = 0x00020000 + 4 * i ∧ v = BitVec.ofNat 32 (brrom s.params i))
        ∨ (∃ j < s.params.l, a.toNat = 0x00030000 + 8 * j ∧ v = BitVec.ofInt 32 (twistCos s.params j))
        ∨ (∃ j < s.params.l, a.toNat = 0x00030000 + 8 * j + 4 ∧ v = BitVec.ofInt 32 (twistSin s.params j)) →
      (s.agenda = .access (.read a) :: rest →
        step s = .next { s with agenda := rest, resp := some { data := some v, error := false } })
      ∧ ∀ w, s.agenda = .access (.write a w) :: rest →
        step s = .next { s with agenda := rest, busErr := true, resp := some { data := none, error := true } })

/-- STATUS: its bits are the flags, GSW_STATE and ERRCODE at their places; a write clears exactly the W1C bits [5:1]
where the written word has a 1, and ERRCODE with ERR; every other bit keeps its value, even while BUSY, and nothing
outside STATUS changes (10_state.md R29, R42, 20_memory.md R56, 60_exceptions.md R126). -/
def Obligations.StatusWriteClearsBits : Prop :=
  (∀ s : State, readValue 0x024 s = some s.statusWord
    ∧ s.statusWord.getLsbD 0 = s.busy ∧ s.statusWord.getLsbD 1 = s.done ∧ s.statusWord.getLsbD 2 = s.err
    ∧ s.statusWord.getLsbD 3 = s.ovf ∧ s.statusWord.getLsbD 4 = s.cmdOvr ∧ s.statusWord.getLsbD 5 = s.busErr
    ∧ s.statusWord.extractLsb' 6 2 = (match s.gswState with | .free => 0 | .alloc => 1 | .ready => 2)
    ∧ s.statusWord.extractLsb' 8 8 = (match s.errCode with | none => 0x00 | some c => c.bits)
    ∧ s.statusWord.extractLsb' 16 16 = 0)
  ∧ ∀ (s : State) (rest : List Event) (w : Word), s.params.legal = true →
    s.agenda = .access (.write 0x024 w) :: rest →
    ∃ t, step s = .next t
      ∧ t.statusWord
        = s.statusWord &&& ~~~((w &&& 0x0000003E) ||| (if w.getLsbD 2 then 0x0000FF00 else 0x00000000))
      ∧ t = { s with
        agenda := rest
        resp := some { data := none, error := false }
        done := t.done
        err := t.err
        ovf := t.ovf
        cmdOvr := t.cmdOvr
        busErr := t.busErr
        errCode := t.errCode }

/-- The fields of CFG, SHIFT, CONST and IRQ_EN read back as written, legal or not; reserved bits of CFG, SHIFT, IRQ_EN,
STATUS and GSW_SHAPE read as 0 and ignore writes (10_state.md R37, R38, R39, R43, R45). IRQ_EN is writable while BUSY.
Such a write only stores: every other register, RING and FREQ stay (20_memory.md R56). -/
def Obligations.RegistersReadBackMasked : Prop :=
  (∀ (s : State) (rest : List Event) (w a mask : Word), s.params.legal = true →
    (s.busy = false ∧ a = 0x010 ∧ mask = 0x001F0F0F) ∨ (s.busy = false ∧ a = 0x014 ∧ mask = 0x007F3F3F)
        ∨ (s.busy = false ∧ a = 0x018 ∧ mask = 0xFFFFFFFF) ∨ (a = 0x028 ∧ mask = 0x00000003) →
      s.agenda = .access (.write a w) :: .access (.read a) :: rest →
      ∃ t u, step s = .next t ∧ step t = .next u ∧ u.resp = some { data := some (w &&& mask), error := false }
        ∧ t = { s with
          agenda := .access (.read a) :: rest
          resp := some { data := none, error := false }
          cfg := if a = 0x010 then t.cfg else s.cfg
          shift := if a = 0x014 then t.shift else s.shift
          const := if a = 0x018 then t.const else s.const
          irqEn := if a = 0x028 then t.irqEn else s.irqEn })
  ∧ ∀ s : State, s.cfg.word &&& ~~~0x001F0F0F = 0 ∧ s.shift.word &&& ~~~0x007F3F3F = 0
      ∧ s.irqEn.word &&& ~~~0x00000003 = 0 ∧ s.statusWord &&& 0xFFFF0000 = 0 ∧ s.shape.word &&& ~~~0x001F0F0F = 0

/-- The constant registers (10_state.md R33, R34, R35, R36), in every state of every instance. -/
def Obligations.ConstantRegisters : Prop :=
  ∀ s : State, s.params.legal = true →
    readValue 0x000 s = some 0x54484645 ∧ readValue 0x004 s = some 0x00000001
    ∧ (∃ v, readValue 0x008 s = some v ∧ (v.extractLsb' 0 4).toNat = s.params.logn
        ∧ (v.extractLsb' 4 4).toNat = s.params.kMax ∧ (v.extractLsb' 8 4).toNat = s.params.ellMax
        ∧ (v.extractLsb' 12 7).toNat = s.params.dw ∧ v.extractLsb' 19 13 = 0)
    ∧ (∃ v, readValue 0x00C s = some v ∧ (v.extractLsb' 0 8).toNat = s.params.ngr
        ∧ (v.extractLsb' 8 8).toNat = s.params.ngf ∧ v.extractLsb' 16 16 = 0)
    ∧ readValue 0x008 State.reset = some 0x0004041B ∧ readValue 0x00C State.reset = some 0x00000808

/-- The interrupt output is DONE and DONE_IE, or ERR and ERR_IE, of the registers the host reads, so it changes only when
STATUS or IRQ_EN changes; it is 0 at reset (60_exceptions.md R134). -/
def Obligations.InterruptOutput : Prop :=
  (∀ s : State, s.irq
    = ((s.statusWord.getLsbD 1 && s.irqEn.word.getLsbD 0) || (s.statusWord.getLsbD 2 && s.irqEn.word.getLsbD 1)))
  ∧ (∀ s t : State, t.statusWord = s.statusWord → t.irqEn.word = s.irqEn.word → t.irq = s.irq)
  ∧ State.reset.irq = false

/-- A reset, also one during a command, gives every register its reset value and abandons the command
(70_reset_and_hazards.md R145, R146, 10_state.md R47). -/
def Obligations.ResetSetsEveryRegister : Prop :=
  ∀ (s : State) (rest : List Event), s.params.legal = true → s.agenda = .reset :: rest →
    ∃ t, step s = .next t ∧ t.params = s.params ∧ t.statusWord = 0 ∧ t.busy = false ∧ t.gswState = .free
      ∧ t.cfg.word = 0x00080101 ∧ t.shift.word = 0x00202000 ∧ t.const = 0 ∧ t.shape.word = 0 ∧ t.lastCmd = 0
      ∧ t.curCmd = 0 ∧ t.irqEn.word = 0 ∧ t.irq = false ∧ t.cmdCount = 0 ∧ t.agenda = rest

/-- No host access between issue and completion changes the command's result: RING and FREQ, the store's state and shape,
CMD_COUNT and the registers the engine reads are the same whether the access comes before the completion or not, and the
overflow the command contributes to OVF, the one it gives from OVF = 0, is the same (20_memory.md R60). That a completion
checks the command again is the model's choice (notes/assumptions/8.md). -/
def Obligations.AccessWhileBusyKeepsResult : Prop :=
  ∀ (s s1 t : State) (a : Access), s.busy = true → hostAccess a s = .next s1 → engineMove s = .next t →
    ∃ t1 t0, engineMove s1 = .next t1 ∧ engineMove { s with ovf := false } = .next t0
      ∧ t.ovf = (s.ovf || t0.ovf) ∧ t1.ovf = (s1.ovf || t0.ovf)
      ∧ t1.mem = t.mem ∧ t1.gswState = t.gswState ∧ t1.shape = t.shape
      ∧ t1.cmdCount = t.cmdCount ∧ t1.busy = t.busy ∧ t1.curCmd = t.curCmd ∧ t1.lastCmd = t.lastCmd
      ∧ t1.cfg = t.cfg ∧ t1.shift = t.shift ∧ t1.const = t.const ∧ t1.params = t.params ∧ t1.epoch = t.epoch

/-- CMD_COUNT counts the commands that completed without error, modulo 2^32: failed commands, dropped CMD writes and every
other host access leave it, and reset clears it (10_state.md R44). The last clause, for a command in flight that fails its
checks, a state no run reaches, is the model's choice (notes/assumptions/8.md), and so is that the engine moves on an
empty agenda (notes/assumptions/5.md). -/
def Obligations.CommandCountCountsSuccesses : Prop :=
  (∀ s : State, readValue 0x02C s = some s.cmdCount) ∧ State.reset.cmdCount = 0
  ∧ ∀ s t : State, step s = .next t →
    ((∃ rest, s.agenda = .reset :: rest) → t.cmdCount = 0)
    ∧ ((s.agenda = [] ∨ ∃ rest, s.agenda = .engine :: rest) → s.busy = true → checkWord s.curCmd s = none →
        t.cmdCount.toNat = (s.cmdCount.toNat + 1) % 2 ^ 32)
    ∧ ((∃ a rest, s.agenda = .access a :: rest) → t.cmdCount = s.cmdCount)
    ∧ ((s.agenda = [] ∨ ∃ rest, s.agenda = .engine :: rest) → s.busy = false ∨ checkWord s.curCmd s ≠ none →
        t.cmdCount = s.cmdCount)

/-! ### Arithmetic, tables and transforms -/

/-- `rnd` rounds to nearest with ties toward plus infinity, an arithmetic right shift after adding half a unit
(00_scope.md R14). -/
def Obligations.RndRoundsToNearest : Prop :=
  (∀ v : Int, rnd v 0 = v ∧ ∀ n : Nat, 1 ≤ n →
    rnd v n = ⌊((v : ℚ) + 2 ^ (n - 1)) / 2 ^ n⌋
      ∧ rnd v n = (v + 2 ^ (n - 1)) >>> n
      ∧ -(2 ^ (n - 1)) ≤ v - 2 ^ n * rnd v n ∧ v - 2 ^ n * rnd v n < 2 ^ (n - 1))
  ∧ rnd 1 1 = 1 ∧ rnd (-1) 1 = 0 ∧ rnd 3 1 = 2 ∧ rnd (-3) 1 = -1

/-- `fit` wraps modulo 2^DW into the DW-bit range and raises the indicator exactly when it changes the value
(00_scope.md R13, R15). -/
def Obligations.FitWrapsAndFlags : Prop :=
  ∀ (dw : Nat) (v : Int), 1 ≤ dw →
    ((2 : Int) ^ dw ∣ v - (fit dw v).val) ∧ -(2 ^ (dw - 1)) ≤ (fit dw v).val ∧ (fit dw v).val < 2 ^ (dw - 1)
      ∧ ((fit dw v).ovf = true ↔ v < -(2 ^ (dw - 1)) ∨ 2 ^ (dw - 1) ≤ v)
      ∧ ((fit dw v).ovf = false ↔ (fit dw v).val = v)

/-- BRROM reverses the LOGL bits of its index; every entry is below L and the table is its own inverse
(40_transform.md R80). -/
def Obligations.BitReversalTable : Prop :=
  (∀ p : Params, p.legal = true → ∀ i < p.l,
    brrom p i < p.l ∧ brrom p (brrom p i) = i
      ∧ ∀ b < p.logL, (brrom p i).testBit (p.logL - 1 - b) = i.testBit b)
  ∧ (List.range 8).map (brrom { Params.default with logn := 4 }) = [0, 4, 2, 6, 1, 5, 3, 7]
  ∧ (List.range 4).map (brrom { Params.default with logn := 3 }) = [0, 2, 1, 3]

/-- Every TWROM word is its cosine or sine rounded to the nearest Q2.30 number, never a tie, and lies in [-2^30, 2^30]; the
(L - 4) * 2 words are the stages of size 8, 16, ..., L with no gap (40_transform.md R81). -/
def Obligations.TwiddlesAreRoundedCosines : Prop :=
  ∀ p : Params, p.legal = true →
    p.twromWords = (p.l - 4) * 2
    ∧ (∀ i < p.twromWords, ∃ k j : Nat, 3 ≤ k ∧ 2 ^ k ≤ p.l ∧ j < 2 ^ k / 2
        ∧ (i = 2 ^ k - 8 + 2 * j ∨ i = 2 ^ k - 8 + 2 * j + 1))
    ∧ ∀ k : Nat, 3 ≤ k → 2 ^ k ≤ p.l → ∀ j : Nat, j < 2 ^ k / 2 →
      let c : ℝ := 2 ^ 30 * Real.cos (2 * Real.pi * j / 2 ^ k)
      let d : ℝ := 2 ^ 30 * Real.sin (2 * Real.pi * j / 2 ^ k)
      2 ^ k - 8 + 2 * j + 1 < p.twromWords
      ∧ twrom (2 ^ k - 8 + 2 * j) = round c ∧ |c - round c| < 1 / 2
      ∧ twrom (2 ^ k - 8 + 2 * j + 1) = round d ∧ |d - round d| < 1 / 2
      ∧ |twrom (2 ^ k - 8 + 2 * j)| ≤ 2 ^ 30 ∧ |twrom (2 ^ k - 8 + 2 * j + 1)| ≤ 2 ^ 30

/-- Every TWIST word is its cosine or sine rounded to the nearest Q2.30 number, never a tie; the tables of N = 16 and
N = 8 written out (41_frequency.md R92). -/
def Obligations.TwistsAreRoundedCosines : Prop :=
  (∀ p : Params, p.legal = true → ∀ j : Nat, j < p.l →
    let c : ℝ := 2 ^ 30 * Real.cos (Real.pi * j / p.n)
    let d : ℝ := 2 ^ 30 * Real.sin (Real.pi * j / p.n)
    twistCos p j = round c ∧ |c - round c| < 1 / 2 ∧ twistSin p j = round d ∧ |d - round d| < 1 / 2)
  ∧ (List.range 8).map (twist { Params.default with logn := 4 })
    = [⟨0x40000000, 0x00000000⟩, ⟨0x3EC52FA0, 0x0C7C5C1E⟩, ⟨0x3B20D79E, 0x187DE2A7⟩, ⟨0x3536CC52, 0x238E7673⟩,
      ⟨0x2D413CCD, 0x2D413CCD⟩, ⟨0x238E7673, 0x3536CC52⟩, ⟨0x187DE2A7, 0x3B20D79E⟩, ⟨0x0C7C5C1E, 0x3EC52FA0⟩]
  ∧ (List.range 4).map (twist { Params.default with logn := 3 })
    = [⟨0x40000000, 0⟩, ⟨0x3B20D79E, 0x187DE2A7⟩, ⟨0x2D413CCD, 0x2D413CCD⟩, ⟨0x187DE2A7, 0x3B20D79E⟩]

/-- Inside a stage each butterfly reads and writes only its own two entries, so the order of butterflies within a stage
changes neither the result nor the overflow indicator (40_transform.md R85). -/
def Obligations.ButterflyOrderIsIrrelevant : Prop :=
  ∀ (p : Params) (dir : Dir) (y : List Cplx) (m : Nat) (bs : List (Nat × Nat)), p.legal = true → y.length = p.l →
    m ∈ stageSizes p → bs.Perm (butterflies p.l m) →
    Calc.loop (butterfly p.dw m dir) y bs = stage p.dw p.l dir y m

/-- A transform of DW-bit values gives L DW-bit values: every write goes through fit, and the final 1/L scale never
overflows (00_scope.md R15, 40_transform.md R85). -/
def Obligations.TransformStaysInRange : Prop :=
  ∀ (p : Params) (dir : Dir) (x : List Cplx), p.legal = true →
    (∀ z ∈ x, inRange p.dw z.re = true ∧ inRange p.dw z.im = true) →
    (fft p dir x).val.length = p.l
      ∧ ∀ z ∈ (fft p dir x).val, inRange p.dw z.re = true ∧ inRange p.dw z.im = true

/-- The fold of a torus operand never overflows: at any scale TSH <= DW - 33 it is exact (41_frequency.md R96,
60_exceptions.md R130). -/
def Obligations.TorusFoldNeverOverflows : Prop :=
  ∀ (p : Params) (sh : Nat) (a : List Word) (j : Nat), p.legal = true → sh ≤ p.dw - 33 →
    fold p sh a j
      = ⟨⟨signed32 (a.getD j 0) * 2 ^ sh, signed32 (a.getD (j + p.l) 0) * 2 ^ sh⟩, false⟩

/-- The zero polynomial: its spectrum is exactly all (0, 0) at every scale, and FCLEAR followed by F2R gives the zero
polynomial exactly, with no overflow (41_frequency.md R98, R99). -/
def Obligations.ZeroPolynomialIsExact : Prop :=
  (∀ (p : Params) (sh : Nat), p.legal = true →
    r2f p sh (List.replicate p.n 0) = ⟨List.replicate p.l ⟨0, 0⟩, false⟩)
  ∧ ∀ (s : State) (f : FreqId) (r : RingId), s.params.legal = true → s.cfgLegal = true →
      f.toNat < s.params.fspace → r.toNat < s.params.rspace →
      ∃ t u, exec (.fclear f) s = .next t ∧ exec (.f2r r f) t = .next u
        ∧ u.ringElem r.toNat = List.replicate s.params.n 0 ∧ u.ovf = s.ovf

/-- The constant polynomial c has the spectrum (signed32(c) * 2^TSH, 0) in every entry, exactly and with no overflow
(41_frequency.md R96). -/
def Obligations.ConstantPolynomialSpectrum : Prop :=
  ∀ (s : State) (f : FreqId) (r : RingId), s.params.legal = true → s.cfgLegal = true →
    f.toNat < s.params.fspace → r.toNat < s.params.rspace →
    (∀ c, 1 ≤ c → c < s.params.n → s.ringCoef r.toNat c = 0) →
    ∃ t, exec (.r2fT f r) s = .next t ∧ t.ovf = s.ovf
      ∧ ∀ j < s.params.l,
          t.freqEntry f.toNat j = ⟨signed32 (s.ringCoef r.toNat 0) * 2 ^ s.shift.tsh.toNat, 0⟩

/-- The gadget decomposition: every digit lies in the balanced range, and the digits weighted by the gadget recombine to
the word within half the smallest gadget step, the bounds being reached (42_gsw.md R105, R106, R107). -/
def Obligations.DigitsRecombine : Prop :=
  let err : Nat → Nat → Word → Int := fun ell bgbit a =>
    signed32 (BitVec.ofInt 32 ((a.toNat : Int)
      - ∑ j ∈ Finset.range ell, digit ell bgbit a j * 2 ^ (32 - (j + 1) * bgbit)))
  (∀ (ell bgbit : Nat) (a : Word), 1 ≤ ell → 1 ≤ bgbit → ell * bgbit ≤ 31 →
    (∀ j < ell, -(2 ^ (bgbit - 1)) ≤ digit ell bgbit a j ∧ digit ell bgbit a j ≤ 2 ^ (bgbit - 1) - 1)
    ∧ -(2 ^ (32 - ell * bgbit)) ≤ 2 * err ell bgbit a ∧ 2 * err ell bgbit a < 2 ^ (32 - ell * bgbit))
  ∧ err 2 4 0x12800000 = -(2 ^ 23) ∧ err 2 4 0x127FFFFF = 2 ^ 23 - 1

/-- With the trivial sample of bit 0 in a READY store whose shape is that of a legal CFG, EXTPROD gives the zero
accumulator exactly (43_extprod.md R123). -/
def Obligations.ZeroSampleGivesZero : Prop :=
  ∀ s : State, s.params.legal = true → s.cfgLegal = true → s.gswState = .ready → s.shape = s.cfg →
    (∀ row < s.kpl, ∀ slot ≤ s.k, ∀ j < s.params.l, s.freqEntry (s.params.gswf row slot) j = ⟨0, 0⟩) →
    ∃ t, exec .extprod s = .next t
      ∧ ∀ slot ≤ s.k, t.ringElem (s.params.acc slot) = List.replicate s.params.n 0

/-- The rotation of a twiddle and the butterfly network: 1 at sizes 2 and 4, -i forward and +i inverse at size 4, and
from size 8 on the product with C - iS forward and C + iS inverse of the table (40_transform.md R84); a stage replaces
the two entries of each of its butterflies by the fitted sum and difference of the first and the rotated second; the
transform is the bit-reversed input through the stages 2, 4, ..., L, the inverse with the 1/L scale (R85). -/
def Obligations.RotationsAndStages : Prop :=
  (∀ (dw j : Nat) (dir : Dir) (v : Cplx),
    rot dw 2 j dir v = ⟨v, false⟩ ∧ rot dw 4 0 dir v = ⟨v, false⟩
    ∧ rot dw 4 1 .fwd v = ⟨⟨v.im, sext dw (-v.re)⟩, !inRange dw (-v.re)⟩
    ∧ rot dw 4 1 .inv v = ⟨⟨sext dw (-v.im), v.re⟩, !inRange dw (-v.im)⟩)
  ∧ (∀ (dw : Nat) (x : Int), 1 ≤ dw →
    rot dw 4 1 .fwd ⟨-(2 ^ (dw - 1)), x⟩ = ⟨⟨x, -(2 ^ (dw - 1))⟩, true⟩
    ∧ rot dw 4 1 .inv ⟨x, -(2 ^ (dw - 1))⟩ = ⟨⟨-(2 ^ (dw - 1)), x⟩, true⟩)
  ∧ (∀ (dw m j : Nat) (v : Cplx), 8 ≤ m →
    let c : Int := twrom (m - 8 + 2 * j)
    let d : Int := twrom (m - 8 + 2 * j + 1)
    let fitted : Int → Int → Calc Cplx := fun x y =>
      ⟨⟨sext dw (rnd x 30), sext dw (rnd y 30)⟩, !inRange dw (rnd x 30) || !inRange dw (rnd y 30)⟩
    rot dw m j .fwd v = fitted (c * v.re + d * v.im) (c * v.im - d * v.re)
    ∧ rot dw m j .inv v = fitted (c * v.re - d * v.im) (c * v.im + d * v.re))
  ∧ (∀ (dw k : Nat) (dir : Dir) (v : Cplx), 1 ≤ dw → 3 ≤ k → k ≤ 12 →
    inRange dw v.re = true → inRange dw v.im = true → rot dw (2 ^ k) 0 dir v = ⟨v, false⟩)
  ∧ (∀ (p : Params) (dir : Dir) (y : List Cplx) (k : Nat), p.legal = true → y.length = p.l → 1 ≤ k → 2 ^ k ≤ p.l →
    let m : Nat := 2 ^ k
    let out : Calc (List Cplx) := stage p.dw p.l dir y m
    let u : Nat → Nat → Cplx := fun b j => y.getD (b * m + j) ⟨0, 0⟩
    let t : Nat → Nat → Calc Cplx := fun b j => rot p.dw m j dir (y.getD (b * m + j + m / 2) ⟨0, 0⟩)
    out.val.length = p.l
    ∧ (∀ b < p.l / m, ∀ j < m / 2,
      out.val.getD (b * m + j) ⟨0, 0⟩
        = ⟨sext p.dw ((u b j).re + (t b j).val.re), sext p.dw ((u b j).im + (t b j).val.im)⟩
      ∧ out.val.getD (b * m + j + m / 2) ⟨0, 0⟩
        = ⟨sext p.dw ((u b j).re - (t b j).val.re), sext p.dw ((u b j).im - (t b j).val.im)⟩)
    ∧ (out.ovf = true ↔ ∃ b < p.l / m, ∃ j < m / 2, (t b j).ovf = true
      ∨ inRange p.dw ((u b j).re + (t b j).val.re) = false ∨ inRange p.dw ((u b j).im + (t b j).val.im) = false
      ∨ inRange p.dw ((u b j).re - (t b j).val.re) = false ∨ inRange p.dw ((u b j).im - (t b j).val.im) = false))
  ∧ ∀ (p : Params) (x : List Cplx), p.legal = true →
    let net : Dir → Calc (List Cplx) := fun dir =>
      Calc.loop (stage p.dw p.l dir) ((List.range p.l).map (fun i => x.getD (brrom p i) ⟨0, 0⟩))
        ((List.range p.logL).map (fun i => 2 ^ (i + 1)))
    fft p .fwd x = net .fwd
    ∧ fft p .inv x = ⟨(net .inv).val.map (fun z => ⟨rnd z.re p.logL, rnd z.im p.logL⟩), (net .inv).ovf⟩

/-- The two conversions: r2f folds coefficients j and j+L at its scale, multiplies by TWIST[j] = c + is and transforms
forward (41_frequency.md R94); f2r transforms inverse, multiplies by c - is, removes the scale TSH and reduces modulo
2^32, real parts to coefficients j, imaginary parts to coefficients j+L (R95); each overflows when one of its fits
does. -/
def Obligations.ConversionsTwistAndUntwist : Prop :=
  ∀ p : Params, p.legal = true →
    let dw : Nat := p.dw
    let c : Nat → Int := twistCos p
    let d : Nat → Int := twistSin p
    (∀ (sh : Nat) (a : List Word),
      let xr : Nat → Int := fun j => signed32 (a.getD j 0) * 2 ^ sh
      let xi : Nat → Int := fun j => signed32 (a.getD (j + p.l) 0) * 2 ^ sh
      let zr : Nat → Int := fun j => rnd (c j * sext dw (xr j) - d j * sext dw (xi j)) 30
      let zi : Nat → Int := fun j => rnd (c j * sext dw (xi j) + d j * sext dw (xr j)) 30
      let f : Calc (List Cplx) := fft p .fwd ((List.range p.l).map (fun j => ⟨sext dw (zr j), sext dw (zi j)⟩))
      (r2f p sh a).val = f.val
      ∧ ((r2f p sh a).ovf = true ↔ f.ovf = true ∨ ∃ j < p.l, inRange dw (xr j) = false ∨ inRange dw (xi j) = false
        ∨ inRange dw (zr j) = false ∨ inRange dw (zi j) = false))
    ∧ ∀ (tsh : Nat) (x : List Cplx),
      let f : Calc (List Cplx) := fft p .inv x
      let y : Nat → Cplx := fun j => f.val.getD j ⟨0, 0⟩
      let zr : Nat → Int := fun j => rnd (c j * (y j).re + d j * (y j).im) 30
      let zi : Nat → Int := fun j => rnd (c j * (y j).im - d j * (y j).re) 30
      (f2r p tsh x).val.length = p.n
      ∧ (∀ j < p.l, (f2r p tsh x).val.getD j 0 = BitVec.ofInt 32 (rnd (sext dw (zr j)) tsh)
        ∧ (f2r p tsh x).val.getD (j + p.l) 0 = BitVec.ofInt 32 (rnd (sext dw (zi j)) tsh))
      ∧ ((f2r p tsh x).ovf = true ↔ f.ovf = true
        ∨ ∃ j < p.l, inRange dw (zr j) = false ∨ inRange dw (zi j) = false)

end
end

