-- ==== Sys2Proof/Laws/Arith.lean ====
section
/-! SUPPORT. Facts about the arithmetic primitives and the overflow-carrying calculations. -/

namespace Sys2Proof.Machine

theorem pow2_eq (n : Nat) : pow2 n = 2 ^ n := by simp [pow2]

theorem pow2_pos (n : Nat) : 0 < pow2 n := by rw [pow2_eq]; positivity

theorem pow2_succ (n : Nat) : pow2 (n + 1) = 2 * pow2 n := by rw [pow2_eq, pow2_eq]; ring

/-- The range test says what it is named for. -/
theorem inRange_iff (dw : Nat) (v : Int) : inRange dw v = true ↔ -(pow2 (dw - 1)) ≤ v ∧ v < pow2 (dw - 1) := by
  simp [inRange]

/-- `sext` gives a value of the width. -/
theorem inRange_sext {n : Nat} (hn : 0 < n) (v : Int) : inRange n (sext n v) = true := by
  obtain ⟨k, rfl⟩ : ∃ k, n = k + 1 := ⟨n - 1, by omega⟩
  have h0 := Int.emod_nonneg v (ne_of_gt (pow2_pos (k + 1)))
  have h1 := Int.emod_lt_of_pos v (pow2_pos (k + 1))
  have h2 := pow2_succ k
  rw [inRange_iff]
  simp only [sext, Nat.add_sub_cancel]
  split <;> omega

/-- `sext` leaves a value of the width as it is. -/
theorem sext_of_inRange {n : Nat} (hn : 0 < n) {v : Int} (h : inRange n v = true) : sext n v = v := by
  obtain ⟨k, rfl⟩ : ∃ k, n = k + 1 := ⟨n - 1, by omega⟩
  rw [inRange_iff] at h
  simp only [Nat.add_sub_cancel] at h
  have h2 := pow2_succ k
  have h3 := pow2_pos k
  simp only [sext, Nat.add_sub_cancel]
  rcases lt_or_ge v 0 with hv | hv
  · have : v % pow2 (k + 1) = v + pow2 (k + 1) := by
      rw [← Int.add_emod_right, Int.emod_eq_of_lt (by omega) (by omega)]
    rw [this, if_neg (by omega)]; omega
  · have : v % pow2 (k + 1) = v := Int.emod_eq_of_lt hv (by omega)
    rw [this, if_pos (by omega)]

/-- `sext` changes a value by a multiple of 2^n. -/
theorem sext_emod (n : Nat) (v : Int) : sext n v % pow2 n = v % pow2 n := by
  simp only [sext]
  split
  · exact Int.emod_emod_of_dvd _ (dvd_refl _)
  · rw [Int.sub_emod_right]; exact Int.emod_emod_of_dvd _ (dvd_refl _)

@[simp] theorem sext_zero (n : Nat) : sext n 0 = 0 := by
  simp [sext, pow2_pos]

@[simp] theorem rnd_zero (n : Nat) : rnd 0 n = 0 := by
  cases n with
  | zero => rfl
  | succ n =>
    simp only [rnd, zero_add]
    exact Int.ediv_eq_zero_of_lt (le_of_lt (pow2_pos n)) (by rw [pow2_succ]; have := pow2_pos n; omega)

@[simp] theorem fit_val (dw : Nat) (v : Int) : (fit dw v).val = sext dw v := rfl
@[simp] theorem fit_ovf (dw : Nat) (v : Int) : (fit dw v).ovf = !inRange dw v := rfl

end Sys2Proof.Machine

namespace Sys2Proof

@[simp] theorem Calc.exact_val {α : Type} (v : α) : (Calc.exact v).val = v := rfl
@[simp] theorem Calc.exact_ovf {α : Type} (v : α) : (Calc.exact v).ovf = false := rfl
@[simp] theorem Calc.cplx_val (a b : Calc Int) : (Calc.cplx a b).val = ⟨a.val, b.val⟩ := rfl
@[simp] theorem Calc.cplx_ovf (a b : Calc Int) : (Calc.cplx a b).ovf = (a.ovf || b.ovf) := rfl

@[simp] theorem Calc.andThen_val {α β : Type} (c : Calc α) (f : α → Calc β) : (c.andThen f).val = (f c.val).val := rfl
@[simp] theorem Calc.andThen_ovf {α β : Type} (c : Calc α) (f : α → Calc β) :
    (c.andThen f).ovf = (c.ovf || (f c.val).ovf) := rfl

/-- The values of `each` are the values of the single calculations. -/
theorem Calc.each_val {α β : Type} (f : α → Calc β) (l : List α) :
    (Calc.each f l).val = l.map (fun x => (f x).val) := by
  induction l with
  | nil => rfl
  | cons x xs ih => simp [Calc.each, ih]

/-- `each` overflows when some single calculation does. -/
theorem Calc.each_ovf {α β : Type} (f : α → Calc β) (l : List α) :
    (Calc.each f l).ovf = l.any (fun x => (f x).ovf) := by
  induction l with
  | nil => rfl
  | cons x xs ih => simp [Calc.each, ih]

/-- The value of `loop` is a left fold of the values. -/
theorem Calc.loop_val {α β : Type} (f : β → α → Calc β) (b : β) (l : List α) :
    (Calc.loop f b l).val = l.foldl (fun c x => (f c x).val) b := by
  induction l generalizing b with
  | nil => rfl
  | cons x xs ih => simp [Calc.loop, ih]

/-- What every step of a loop keeps, the loop keeps. -/
theorem Calc.loop_keeps {α β : Type} (P : β → Prop) (f : β → α → Calc β) (l : List α)
    (hf : ∀ b, ∀ x ∈ l, P b → P (f b x).val) (b : β) (hb : P b) : P (Calc.loop f b l).val := by
  induction l generalizing b with
  | nil => exact hb
  | cons x xs ih =>
    exact ih (fun c y hy => hf c y (List.mem_cons_of_mem _ hy)) _ (hf b x List.mem_cons_self hb)

/-- A loop over a concatenation is the first part, then the second. -/
theorem Calc.loop_append {α β : Type} (f : β → α → Calc β) (b : β) (l k : List α) :
    Calc.loop f b (l ++ k) = (Calc.loop f b l).andThen (fun c => Calc.loop f c k) := by
  induction l generalizing b with
  | nil => simp [Calc.loop, Calc.andThen]
  | cons x xs ih => simp [Calc.loop, ih, Calc.andThen, Bool.or_assoc]

end Sys2Proof
end

