-- ==== Sys2Proof/Laws/State.lean ====
section
/-! SUPPORT. One lemma per field of State for every named update, true by rfl. -/

namespace Sys2Proof.Machine

@[simp] theorem storeWords_params (s : State) (base : Nat) (ws : List Word) : (s.storeWords base ws).params = s.params :=
    rfl
@[simp] theorem storeWords_cfg (s : State) (base : Nat) (ws : List Word) : (s.storeWords base ws).cfg = s.cfg := rfl
@[simp] theorem storeWords_shift (s : State) (base : Nat) (ws : List Word) : (s.storeWords base ws).shift = s.shift :=
    rfl
@[simp] theorem storeWords_const (s : State) (base : Nat) (ws : List Word) : (s.storeWords base ws).const = s.const :=
    rfl
@[simp] theorem storeWords_shape (s : State) (base : Nat) (ws : List Word) : (s.storeWords base ws).shape = s.shape :=
    rfl
@[simp] theorem storeWords_lastCmd (s : State) (base : Nat) (ws : List Word) : (s.storeWords base ws).lastCmd = s.lastCmd :=
    rfl
@[simp] theorem storeWords_curCmd (s : State) (base : Nat) (ws : List Word) : (s.storeWords base ws).curCmd = s.curCmd :=
    rfl
@[simp] theorem storeWords_busy (s : State) (base : Nat) (ws : List Word) : (s.storeWords base ws).busy = s.busy :=
    rfl
@[simp] theorem storeWords_done (s : State) (base : Nat) (ws : List Word) : (s.storeWords base ws).done = s.done :=
    rfl
@[simp] theorem storeWords_err (s : State) (base : Nat) (ws : List Word) : (s.storeWords base ws).err = s.err := rfl
@[simp] theorem storeWords_ovf (s : State) (base : Nat) (ws : List Word) : (s.storeWords base ws).ovf = s.ovf := rfl
@[simp] theorem storeWords_cmdOvr (s : State) (base : Nat) (ws : List Word) : (s.storeWords base ws).cmdOvr = s.cmdOvr :=
    rfl
@[simp] theorem storeWords_busErr (s : State) (base : Nat) (ws : List Word) : (s.storeWords base ws).busErr = s.busErr :=
    rfl
@[simp] theorem storeWords_gswState (s : State) (base : Nat) (ws : List Word) : (s.storeWords base ws).gswState = s.gswState :=
    rfl
@[simp] theorem storeWords_errCode (s : State) (base : Nat) (ws : List Word) : (s.storeWords base ws).errCode = s.errCode :=
    rfl
@[simp] theorem storeWords_irqEn (s : State) (base : Nat) (ws : List Word) : (s.storeWords base ws).irqEn = s.irqEn :=
    rfl
@[simp] theorem storeWords_cmdCount (s : State) (base : Nat) (ws : List Word) : (s.storeWords base ws).cmdCount = s.cmdCount :=
    rfl
@[simp] theorem storeWords_mem (s : State) (base : Nat) (ws : List Word) : (s.storeWords base ws).mem = s.mem.store base ws :=
    rfl
@[simp] theorem storeWords_epoch (s : State) (base : Nat) (ws : List Word) : (s.storeWords base ws).epoch = s.epoch :=
    rfl
@[simp] theorem storeWords_agenda (s : State) (base : Nat) (ws : List Word) : (s.storeWords base ws).agenda = s.agenda :=
    rfl
@[simp] theorem storeWords_resp (s : State) (base : Nat) (ws : List Word) : (s.storeWords base ws).resp = s.resp :=
    rfl

@[simp] theorem setRing_params (s : State) (r : Nat) (ws : List Word) : (s.setRing r ws).params = s.params := rfl
@[simp] theorem setRing_cfg (s : State) (r : Nat) (ws : List Word) : (s.setRing r ws).cfg = s.cfg := rfl
@[simp] theorem setRing_shift (s : State) (r : Nat) (ws : List Word) : (s.setRing r ws).shift = s.shift := rfl
@[simp] theorem setRing_const (s : State) (r : Nat) (ws : List Word) : (s.setRing r ws).const = s.const := rfl
@[simp] theorem setRing_shape (s : State) (r : Nat) (ws : List Word) : (s.setRing r ws).shape = s.shape := rfl
@[simp] theorem setRing_lastCmd (s : State) (r : Nat) (ws : List Word) : (s.setRing r ws).lastCmd = s.lastCmd := rfl
@[simp] theorem setRing_curCmd (s : State) (r : Nat) (ws : List Word) : (s.setRing r ws).curCmd = s.curCmd := rfl
@[simp] theorem setRing_busy (s : State) (r : Nat) (ws : List Word) : (s.setRing r ws).busy = s.busy := rfl
@[simp] theorem setRing_done (s : State) (r : Nat) (ws : List Word) : (s.setRing r ws).done = s.done := rfl
@[simp] theorem setRing_err (s : State) (r : Nat) (ws : List Word) : (s.setRing r ws).err = s.err := rfl
@[simp] theorem setRing_ovf (s : State) (r : Nat) (ws : List Word) : (s.setRing r ws).ovf = s.ovf := rfl
@[simp] theorem setRing_cmdOvr (s : State) (r : Nat) (ws : List Word) : (s.setRing r ws).cmdOvr = s.cmdOvr := rfl
@[simp] theorem setRing_busErr (s : State) (r : Nat) (ws : List Word) : (s.setRing r ws).busErr = s.busErr := rfl
@[simp] theorem setRing_gswState (s : State) (r : Nat) (ws : List Word) : (s.setRing r ws).gswState = s.gswState :=
    rfl
@[simp] theorem setRing_errCode (s : State) (r : Nat) (ws : List Word) : (s.setRing r ws).errCode = s.errCode := rfl
@[simp] theorem setRing_irqEn (s : State) (r : Nat) (ws : List Word) : (s.setRing r ws).irqEn = s.irqEn := rfl
@[simp] theorem setRing_cmdCount (s : State) (r : Nat) (ws : List Word) : (s.setRing r ws).cmdCount = s.cmdCount :=
    rfl
@[simp] theorem setRing_mem (s : State) (r : Nat) (ws : List Word) : (s.setRing r ws).mem = s.mem.store (s.params.ringAddr r 0) ws :=
    rfl
@[simp] theorem setRing_epoch (s : State) (r : Nat) (ws : List Word) : (s.setRing r ws).epoch = s.epoch := rfl
@[simp] theorem setRing_agenda (s : State) (r : Nat) (ws : List Word) : (s.setRing r ws).agenda = s.agenda := rfl
@[simp] theorem setRing_resp (s : State) (r : Nat) (ws : List Word) : (s.setRing r ws).resp = s.resp := rfl

@[simp] theorem setFreq_params (s : State) (f : Nat) (es : List Cplx) : (s.setFreq f es).params = s.params := rfl
@[simp] theorem setFreq_cfg (s : State) (f : Nat) (es : List Cplx) : (s.setFreq f es).cfg = s.cfg := rfl
@[simp] theorem setFreq_shift (s : State) (f : Nat) (es : List Cplx) : (s.setFreq f es).shift = s.shift := rfl
@[simp] theorem setFreq_const (s : State) (f : Nat) (es : List Cplx) : (s.setFreq f es).const = s.const := rfl
@[simp] theorem setFreq_shape (s : State) (f : Nat) (es : List Cplx) : (s.setFreq f es).shape = s.shape := rfl
@[simp] theorem setFreq_lastCmd (s : State) (f : Nat) (es : List Cplx) : (s.setFreq f es).lastCmd = s.lastCmd := rfl
@[simp] theorem setFreq_curCmd (s : State) (f : Nat) (es : List Cplx) : (s.setFreq f es).curCmd = s.curCmd := rfl
@[simp] theorem setFreq_busy (s : State) (f : Nat) (es : List Cplx) : (s.setFreq f es).busy = s.busy := rfl
@[simp] theorem setFreq_done (s : State) (f : Nat) (es : List Cplx) : (s.setFreq f es).done = s.done := rfl
@[simp] theorem setFreq_err (s : State) (f : Nat) (es : List Cplx) : (s.setFreq f es).err = s.err := rfl
@[simp] theorem setFreq_ovf (s : State) (f : Nat) (es : List Cplx) : (s.setFreq f es).ovf = s.ovf := rfl
@[simp] theorem setFreq_cmdOvr (s : State) (f : Nat) (es : List Cplx) : (s.setFreq f es).cmdOvr = s.cmdOvr := rfl
@[simp] theorem setFreq_busErr (s : State) (f : Nat) (es : List Cplx) : (s.setFreq f es).busErr = s.busErr := rfl
@[simp] theorem setFreq_gswState (s : State) (f : Nat) (es : List Cplx) : (s.setFreq f es).gswState = s.gswState :=
    rfl
@[simp] theorem setFreq_errCode (s : State) (f : Nat) (es : List Cplx) : (s.setFreq f es).errCode = s.errCode := rfl
@[simp] theorem setFreq_irqEn (s : State) (f : Nat) (es : List Cplx) : (s.setFreq f es).irqEn = s.irqEn := rfl
@[simp] theorem setFreq_cmdCount (s : State) (f : Nat) (es : List Cplx) : (s.setFreq f es).cmdCount = s.cmdCount :=
    rfl
@[simp] theorem setFreq_mem (s : State) (f : Nat) (es : List Cplx) : (s.setFreq f es).mem = s.mem.store (s.params.freqAddr f 0 0) (es.flatMap entryWords) :=
    rfl
@[simp] theorem setFreq_epoch (s : State) (f : Nat) (es : List Cplx) : (s.setFreq f es).epoch = s.epoch := rfl
@[simp] theorem setFreq_agenda (s : State) (f : Nat) (es : List Cplx) : (s.setFreq f es).agenda = s.agenda := rfl
@[simp] theorem setFreq_resp (s : State) (f : Nat) (es : List Cplx) : (s.setFreq f es).resp = s.resp := rfl

@[simp] theorem setGswState_params (g : GswState) (s : State) : (setGswState g s).params = s.params := rfl
@[simp] theorem setGswState_cfg (g : GswState) (s : State) : (setGswState g s).cfg = s.cfg := rfl
@[simp] theorem setGswState_shift (g : GswState) (s : State) : (setGswState g s).shift = s.shift := rfl
@[simp] theorem setGswState_const (g : GswState) (s : State) : (setGswState g s).const = s.const := rfl
@[simp] theorem setGswState_shape (g : GswState) (s : State) : (setGswState g s).shape = s.shape := rfl
@[simp] theorem setGswState_lastCmd (g : GswState) (s : State) : (setGswState g s).lastCmd = s.lastCmd := rfl
@[simp] theorem setGswState_curCmd (g : GswState) (s : State) : (setGswState g s).curCmd = s.curCmd := rfl
@[simp] theorem setGswState_busy (g : GswState) (s : State) : (setGswState g s).busy = s.busy := rfl
@[simp] theorem setGswState_done (g : GswState) (s : State) : (setGswState g s).done = s.done := rfl
@[simp] theorem setGswState_err (g : GswState) (s : State) : (setGswState g s).err = s.err := rfl
@[simp] theorem setGswState_ovf (g : GswState) (s : State) : (setGswState g s).ovf = s.ovf := rfl
@[simp] theorem setGswState_cmdOvr (g : GswState) (s : State) : (setGswState g s).cmdOvr = s.cmdOvr := rfl
@[simp] theorem setGswState_busErr (g : GswState) (s : State) : (setGswState g s).busErr = s.busErr := rfl
@[simp] theorem setGswState_gswState (g : GswState) (s : State) : (setGswState g s).gswState = g := rfl
@[simp] theorem setGswState_errCode (g : GswState) (s : State) : (setGswState g s).errCode = s.errCode := rfl
@[simp] theorem setGswState_irqEn (g : GswState) (s : State) : (setGswState g s).irqEn = s.irqEn := rfl
@[simp] theorem setGswState_cmdCount (g : GswState) (s : State) : (setGswState g s).cmdCount = s.cmdCount := rfl
@[simp] theorem setGswState_mem (g : GswState) (s : State) : (setGswState g s).mem = s.mem := rfl
@[simp] theorem setGswState_epoch (g : GswState) (s : State) : (setGswState g s).epoch = s.epoch := rfl
@[simp] theorem setGswState_agenda (g : GswState) (s : State) : (setGswState g s).agenda = s.agenda := rfl
@[simp] theorem setGswState_resp (g : GswState) (s : State) : (setGswState g s).resp = s.resp := rfl

@[simp] theorem setShape_params (c : Cfg) (s : State) : (setShape c s).params = s.params := rfl
@[simp] theorem setShape_cfg (c : Cfg) (s : State) : (setShape c s).cfg = s.cfg := rfl
@[simp] theorem setShape_shift (c : Cfg) (s : State) : (setShape c s).shift = s.shift := rfl
@[simp] theorem setShape_const (c : Cfg) (s : State) : (setShape c s).const = s.const := rfl
@[simp] theorem setShape_shape (c : Cfg) (s : State) : (setShape c s).shape = c := rfl
@[simp] theorem setShape_lastCmd (c : Cfg) (s : State) : (setShape c s).lastCmd = s.lastCmd := rfl
@[simp] theorem setShape_curCmd (c : Cfg) (s : State) : (setShape c s).curCmd = s.curCmd := rfl
@[simp] theorem setShape_busy (c : Cfg) (s : State) : (setShape c s).busy = s.busy := rfl
@[simp] theorem setShape_done (c : Cfg) (s : State) : (setShape c s).done = s.done := rfl
@[simp] theorem setShape_err (c : Cfg) (s : State) : (setShape c s).err = s.err := rfl
@[simp] theorem setShape_ovf (c : Cfg) (s : State) : (setShape c s).ovf = s.ovf := rfl
@[simp] theorem setShape_cmdOvr (c : Cfg) (s : State) : (setShape c s).cmdOvr = s.cmdOvr := rfl
@[simp] theorem setShape_busErr (c : Cfg) (s : State) : (setShape c s).busErr = s.busErr := rfl
@[simp] theorem setShape_gswState (c : Cfg) (s : State) : (setShape c s).gswState = s.gswState := rfl
@[simp] theorem setShape_errCode (c : Cfg) (s : State) : (setShape c s).errCode = s.errCode := rfl
@[simp] theorem setShape_irqEn (c : Cfg) (s : State) : (setShape c s).irqEn = s.irqEn := rfl
@[simp] theorem setShape_cmdCount (c : Cfg) (s : State) : (setShape c s).cmdCount = s.cmdCount := rfl
@[simp] theorem setShape_mem (c : Cfg) (s : State) : (setShape c s).mem = s.mem := rfl
@[simp] theorem setShape_epoch (c : Cfg) (s : State) : (setShape c s).epoch = s.epoch := rfl
@[simp] theorem setShape_agenda (c : Cfg) (s : State) : (setShape c s).agenda = s.agenda := rfl
@[simp] theorem setShape_resp (c : Cfg) (s : State) : (setShape c s).resp = s.resp := rfl

@[simp] theorem setCfg_params (c : Cfg) (s : State) : (setCfg c s).params = s.params := rfl
@[simp] theorem setCfg_cfg (c : Cfg) (s : State) : (setCfg c s).cfg = c := rfl
@[simp] theorem setCfg_shift (c : Cfg) (s : State) : (setCfg c s).shift = s.shift := rfl
@[simp] theorem setCfg_const (c : Cfg) (s : State) : (setCfg c s).const = s.const := rfl
@[simp] theorem setCfg_shape (c : Cfg) (s : State) : (setCfg c s).shape = s.shape := rfl
@[simp] theorem setCfg_lastCmd (c : Cfg) (s : State) : (setCfg c s).lastCmd = s.lastCmd := rfl
@[simp] theorem setCfg_curCmd (c : Cfg) (s : State) : (setCfg c s).curCmd = s.curCmd := rfl
@[simp] theorem setCfg_busy (c : Cfg) (s : State) : (setCfg c s).busy = s.busy := rfl
@[simp] theorem setCfg_done (c : Cfg) (s : State) : (setCfg c s).done = s.done := rfl
@[simp] theorem setCfg_err (c : Cfg) (s : State) : (setCfg c s).err = s.err := rfl
@[simp] theorem setCfg_ovf (c : Cfg) (s : State) : (setCfg c s).ovf = s.ovf := rfl
@[simp] theorem setCfg_cmdOvr (c : Cfg) (s : State) : (setCfg c s).cmdOvr = s.cmdOvr := rfl
@[simp] theorem setCfg_busErr (c : Cfg) (s : State) : (setCfg c s).busErr = s.busErr := rfl
@[simp] theorem setCfg_gswState (c : Cfg) (s : State) : (setCfg c s).gswState = s.gswState := rfl
@[simp] theorem setCfg_errCode (c : Cfg) (s : State) : (setCfg c s).errCode = s.errCode := rfl
@[simp] theorem setCfg_irqEn (c : Cfg) (s : State) : (setCfg c s).irqEn = s.irqEn := rfl
@[simp] theorem setCfg_cmdCount (c : Cfg) (s : State) : (setCfg c s).cmdCount = s.cmdCount := rfl
@[simp] theorem setCfg_mem (c : Cfg) (s : State) : (setCfg c s).mem = s.mem := rfl
@[simp] theorem setCfg_epoch (c : Cfg) (s : State) : (setCfg c s).epoch = s.epoch := rfl
@[simp] theorem setCfg_agenda (c : Cfg) (s : State) : (setCfg c s).agenda = s.agenda := rfl
@[simp] theorem setCfg_resp (c : Cfg) (s : State) : (setCfg c s).resp = s.resp := rfl

@[simp] theorem setShift_params (c : Shift) (s : State) : (setShift c s).params = s.params := rfl
@[simp] theorem setShift_cfg (c : Shift) (s : State) : (setShift c s).cfg = s.cfg := rfl
@[simp] theorem setShift_shift (c : Shift) (s : State) : (setShift c s).shift = c := rfl
@[simp] theorem setShift_const (c : Shift) (s : State) : (setShift c s).const = s.const := rfl
@[simp] theorem setShift_shape (c : Shift) (s : State) : (setShift c s).shape = s.shape := rfl
@[simp] theorem setShift_lastCmd (c : Shift) (s : State) : (setShift c s).lastCmd = s.lastCmd := rfl
@[simp] theorem setShift_curCmd (c : Shift) (s : State) : (setShift c s).curCmd = s.curCmd := rfl
@[simp] theorem setShift_busy (c : Shift) (s : State) : (setShift c s).busy = s.busy := rfl
@[simp] theorem setShift_done (c : Shift) (s : State) : (setShift c s).done = s.done := rfl
@[simp] theorem setShift_err (c : Shift) (s : State) : (setShift c s).err = s.err := rfl
@[simp] theorem setShift_ovf (c : Shift) (s : State) : (setShift c s).ovf = s.ovf := rfl
@[simp] theorem setShift_cmdOvr (c : Shift) (s : State) : (setShift c s).cmdOvr = s.cmdOvr := rfl
@[simp] theorem setShift_busErr (c : Shift) (s : State) : (setShift c s).busErr = s.busErr := rfl
@[simp] theorem setShift_gswState (c : Shift) (s : State) : (setShift c s).gswState = s.gswState := rfl
@[simp] theorem setShift_errCode (c : Shift) (s : State) : (setShift c s).errCode = s.errCode := rfl
@[simp] theorem setShift_irqEn (c : Shift) (s : State) : (setShift c s).irqEn = s.irqEn := rfl
@[simp] theorem setShift_cmdCount (c : Shift) (s : State) : (setShift c s).cmdCount = s.cmdCount := rfl
@[simp] theorem setShift_mem (c : Shift) (s : State) : (setShift c s).mem = s.mem := rfl
@[simp] theorem setShift_epoch (c : Shift) (s : State) : (setShift c s).epoch = s.epoch := rfl
@[simp] theorem setShift_agenda (c : Shift) (s : State) : (setShift c s).agenda = s.agenda := rfl
@[simp] theorem setShift_resp (c : Shift) (s : State) : (setShift c s).resp = s.resp := rfl

@[simp] theorem setConst_params (w : Word) (s : State) : (setConst w s).params = s.params := rfl
@[simp] theorem setConst_cfg (w : Word) (s : State) : (setConst w s).cfg = s.cfg := rfl
@[simp] theorem setConst_shift (w : Word) (s : State) : (setConst w s).shift = s.shift := rfl
@[simp] theorem setConst_const (w : Word) (s : State) : (setConst w s).const = w := rfl
@[simp] theorem setConst_shape (w : Word) (s : State) : (setConst w s).shape = s.shape := rfl
@[simp] theorem setConst_lastCmd (w : Word) (s : State) : (setConst w s).lastCmd = s.lastCmd := rfl
@[simp] theorem setConst_curCmd (w : Word) (s : State) : (setConst w s).curCmd = s.curCmd := rfl
@[simp] theorem setConst_busy (w : Word) (s : State) : (setConst w s).busy = s.busy := rfl
@[simp] theorem setConst_done (w : Word) (s : State) : (setConst w s).done = s.done := rfl
@[simp] theorem setConst_err (w : Word) (s : State) : (setConst w s).err = s.err := rfl
@[simp] theorem setConst_ovf (w : Word) (s : State) : (setConst w s).ovf = s.ovf := rfl
@[simp] theorem setConst_cmdOvr (w : Word) (s : State) : (setConst w s).cmdOvr = s.cmdOvr := rfl
@[simp] theorem setConst_busErr (w : Word) (s : State) : (setConst w s).busErr = s.busErr := rfl
@[simp] theorem setConst_gswState (w : Word) (s : State) : (setConst w s).gswState = s.gswState := rfl
@[simp] theorem setConst_errCode (w : Word) (s : State) : (setConst w s).errCode = s.errCode := rfl
@[simp] theorem setConst_irqEn (w : Word) (s : State) : (setConst w s).irqEn = s.irqEn := rfl
@[simp] theorem setConst_cmdCount (w : Word) (s : State) : (setConst w s).cmdCount = s.cmdCount := rfl
@[simp] theorem setConst_mem (w : Word) (s : State) : (setConst w s).mem = s.mem := rfl
@[simp] theorem setConst_epoch (w : Word) (s : State) : (setConst w s).epoch = s.epoch := rfl
@[simp] theorem setConst_agenda (w : Word) (s : State) : (setConst w s).agenda = s.agenda := rfl
@[simp] theorem setConst_resp (w : Word) (s : State) : (setConst w s).resp = s.resp := rfl

@[simp] theorem setIrqEn_params (c : IrqEn) (s : State) : (setIrqEn c s).params = s.params := rfl
@[simp] theorem setIrqEn_cfg (c : IrqEn) (s : State) : (setIrqEn c s).cfg = s.cfg := rfl
@[simp] theorem setIrqEn_shift (c : IrqEn) (s : State) : (setIrqEn c s).shift = s.shift := rfl
@[simp] theorem setIrqEn_const (c : IrqEn) (s : State) : (setIrqEn c s).const = s.const := rfl
@[simp] theorem setIrqEn_shape (c : IrqEn) (s : State) : (setIrqEn c s).shape = s.shape := rfl
@[simp] theorem setIrqEn_lastCmd (c : IrqEn) (s : State) : (setIrqEn c s).lastCmd = s.lastCmd := rfl
@[simp] theorem setIrqEn_curCmd (c : IrqEn) (s : State) : (setIrqEn c s).curCmd = s.curCmd := rfl
@[simp] theorem setIrqEn_busy (c : IrqEn) (s : State) : (setIrqEn c s).busy = s.busy := rfl
@[simp] theorem setIrqEn_done (c : IrqEn) (s : State) : (setIrqEn c s).done = s.done := rfl
@[simp] theorem setIrqEn_err (c : IrqEn) (s : State) : (setIrqEn c s).err = s.err := rfl
@[simp] theorem setIrqEn_ovf (c : IrqEn) (s : State) : (setIrqEn c s).ovf = s.ovf := rfl
@[simp] theorem setIrqEn_cmdOvr (c : IrqEn) (s : State) : (setIrqEn c s).cmdOvr = s.cmdOvr := rfl
@[simp] theorem setIrqEn_busErr (c : IrqEn) (s : State) : (setIrqEn c s).busErr = s.busErr := rfl
@[simp] theorem setIrqEn_gswState (c : IrqEn) (s : State) : (setIrqEn c s).gswState = s.gswState := rfl
@[simp] theorem setIrqEn_errCode (c : IrqEn) (s : State) : (setIrqEn c s).errCode = s.errCode := rfl
@[simp] theorem setIrqEn_irqEn (c : IrqEn) (s : State) : (setIrqEn c s).irqEn = c := rfl
@[simp] theorem setIrqEn_cmdCount (c : IrqEn) (s : State) : (setIrqEn c s).cmdCount = s.cmdCount := rfl
@[simp] theorem setIrqEn_mem (c : IrqEn) (s : State) : (setIrqEn c s).mem = s.mem := rfl
@[simp] theorem setIrqEn_epoch (c : IrqEn) (s : State) : (setIrqEn c s).epoch = s.epoch := rfl
@[simp] theorem setIrqEn_agenda (c : IrqEn) (s : State) : (setIrqEn c s).agenda = s.agenda := rfl
@[simp] theorem setIrqEn_resp (c : IrqEn) (s : State) : (setIrqEn c s).resp = s.resp := rfl

@[simp] theorem setLastCmd_params (w : Word) (s : State) : (setLastCmd w s).params = s.params := rfl
@[simp] theorem setLastCmd_cfg (w : Word) (s : State) : (setLastCmd w s).cfg = s.cfg := rfl
@[simp] theorem setLastCmd_shift (w : Word) (s : State) : (setLastCmd w s).shift = s.shift := rfl
@[simp] theorem setLastCmd_const (w : Word) (s : State) : (setLastCmd w s).const = s.const := rfl
@[simp] theorem setLastCmd_shape (w : Word) (s : State) : (setLastCmd w s).shape = s.shape := rfl
@[simp] theorem setLastCmd_lastCmd (w : Word) (s : State) : (setLastCmd w s).lastCmd = w := rfl
@[simp] theorem setLastCmd_curCmd (w : Word) (s : State) : (setLastCmd w s).curCmd = s.curCmd := rfl
@[simp] theorem setLastCmd_busy (w : Word) (s : State) : (setLastCmd w s).busy = s.busy := rfl
@[simp] theorem setLastCmd_done (w : Word) (s : State) : (setLastCmd w s).done = s.done := rfl
@[simp] theorem setLastCmd_err (w : Word) (s : State) : (setLastCmd w s).err = s.err := rfl
@[simp] theorem setLastCmd_ovf (w : Word) (s : State) : (setLastCmd w s).ovf = s.ovf := rfl
@[simp] theorem setLastCmd_cmdOvr (w : Word) (s : State) : (setLastCmd w s).cmdOvr = s.cmdOvr := rfl
@[simp] theorem setLastCmd_busErr (w : Word) (s : State) : (setLastCmd w s).busErr = s.busErr := rfl
@[simp] theorem setLastCmd_gswState (w : Word) (s : State) : (setLastCmd w s).gswState = s.gswState := rfl
@[simp] theorem setLastCmd_errCode (w : Word) (s : State) : (setLastCmd w s).errCode = s.errCode := rfl
@[simp] theorem setLastCmd_irqEn (w : Word) (s : State) : (setLastCmd w s).irqEn = s.irqEn := rfl
@[simp] theorem setLastCmd_cmdCount (w : Word) (s : State) : (setLastCmd w s).cmdCount = s.cmdCount := rfl
@[simp] theorem setLastCmd_mem (w : Word) (s : State) : (setLastCmd w s).mem = s.mem := rfl
@[simp] theorem setLastCmd_epoch (w : Word) (s : State) : (setLastCmd w s).epoch = s.epoch := rfl
@[simp] theorem setLastCmd_agenda (w : Word) (s : State) : (setLastCmd w s).agenda = s.agenda := rfl
@[simp] theorem setLastCmd_resp (w : Word) (s : State) : (setLastCmd w s).resp = s.resp := rfl

@[simp] theorem overrun_params (s : State) : (overrun s).params = s.params := rfl
@[simp] theorem overrun_cfg (s : State) : (overrun s).cfg = s.cfg := rfl
@[simp] theorem overrun_shift (s : State) : (overrun s).shift = s.shift := rfl
@[simp] theorem overrun_const (s : State) : (overrun s).const = s.const := rfl
@[simp] theorem overrun_shape (s : State) : (overrun s).shape = s.shape := rfl
@[simp] theorem overrun_lastCmd (s : State) : (overrun s).lastCmd = s.lastCmd := rfl
@[simp] theorem overrun_curCmd (s : State) : (overrun s).curCmd = s.curCmd := rfl
@[simp] theorem overrun_busy (s : State) : (overrun s).busy = s.busy := rfl
@[simp] theorem overrun_done (s : State) : (overrun s).done = s.done := rfl
@[simp] theorem overrun_err (s : State) : (overrun s).err = s.err := rfl
@[simp] theorem overrun_ovf (s : State) : (overrun s).ovf = s.ovf := rfl
@[simp] theorem overrun_cmdOvr (s : State) : (overrun s).cmdOvr = true := rfl
@[simp] theorem overrun_busErr (s : State) : (overrun s).busErr = s.busErr := rfl
@[simp] theorem overrun_gswState (s : State) : (overrun s).gswState = s.gswState := rfl
@[simp] theorem overrun_errCode (s : State) : (overrun s).errCode = s.errCode := rfl
@[simp] theorem overrun_irqEn (s : State) : (overrun s).irqEn = s.irqEn := rfl
@[simp] theorem overrun_cmdCount (s : State) : (overrun s).cmdCount = s.cmdCount := rfl
@[simp] theorem overrun_mem (s : State) : (overrun s).mem = s.mem := rfl
@[simp] theorem overrun_epoch (s : State) : (overrun s).epoch = s.epoch := rfl
@[simp] theorem overrun_agenda (s : State) : (overrun s).agenda = s.agenda := rfl
@[simp] theorem overrun_resp (s : State) : (overrun s).resp = s.resp := rfl

@[simp] theorem setAgenda_params (es : List Event) (s : State) : (setAgenda es s).params = s.params := rfl
@[simp] theorem setAgenda_cfg (es : List Event) (s : State) : (setAgenda es s).cfg = s.cfg := rfl
@[simp] theorem setAgenda_shift (es : List Event) (s : State) : (setAgenda es s).shift = s.shift := rfl
@[simp] theorem setAgenda_const (es : List Event) (s : State) : (setAgenda es s).const = s.const := rfl
@[simp] theorem setAgenda_shape (es : List Event) (s : State) : (setAgenda es s).shape = s.shape := rfl
@[simp] theorem setAgenda_lastCmd (es : List Event) (s : State) : (setAgenda es s).lastCmd = s.lastCmd := rfl
@[simp] theorem setAgenda_curCmd (es : List Event) (s : State) : (setAgenda es s).curCmd = s.curCmd := rfl
@[simp] theorem setAgenda_busy (es : List Event) (s : State) : (setAgenda es s).busy = s.busy := rfl
@[simp] theorem setAgenda_done (es : List Event) (s : State) : (setAgenda es s).done = s.done := rfl
@[simp] theorem setAgenda_err (es : List Event) (s : State) : (setAgenda es s).err = s.err := rfl
@[simp] theorem setAgenda_ovf (es : List Event) (s : State) : (setAgenda es s).ovf = s.ovf := rfl
@[simp] theorem setAgenda_cmdOvr (es : List Event) (s : State) : (setAgenda es s).cmdOvr = s.cmdOvr := rfl
@[simp] theorem setAgenda_busErr (es : List Event) (s : State) : (setAgenda es s).busErr = s.busErr := rfl
@[simp] theorem setAgenda_gswState (es : List Event) (s : State) : (setAgenda es s).gswState = s.gswState := rfl
@[simp] theorem setAgenda_errCode (es : List Event) (s : State) : (setAgenda es s).errCode = s.errCode := rfl
@[simp] theorem setAgenda_irqEn (es : List Event) (s : State) : (setAgenda es s).irqEn = s.irqEn := rfl
@[simp] theorem setAgenda_cmdCount (es : List Event) (s : State) : (setAgenda es s).cmdCount = s.cmdCount := rfl
@[simp] theorem setAgenda_mem (es : List Event) (s : State) : (setAgenda es s).mem = s.mem := rfl
@[simp] theorem setAgenda_epoch (es : List Event) (s : State) : (setAgenda es s).epoch = s.epoch := rfl
@[simp] theorem setAgenda_agenda (es : List Event) (s : State) : (setAgenda es s).agenda = es := rfl
@[simp] theorem setAgenda_resp (es : List Event) (s : State) : (setAgenda es s).resp = s.resp := rfl

@[simp] theorem fail_params (c : ErrCode) (s : State) : (fail c s).params = s.params := rfl
@[simp] theorem fail_cfg (c : ErrCode) (s : State) : (fail c s).cfg = s.cfg := rfl
@[simp] theorem fail_shift (c : ErrCode) (s : State) : (fail c s).shift = s.shift := rfl
@[simp] theorem fail_const (c : ErrCode) (s : State) : (fail c s).const = s.const := rfl
@[simp] theorem fail_shape (c : ErrCode) (s : State) : (fail c s).shape = s.shape := rfl
@[simp] theorem fail_lastCmd (c : ErrCode) (s : State) : (fail c s).lastCmd = s.lastCmd := rfl
@[simp] theorem fail_curCmd (c : ErrCode) (s : State) : (fail c s).curCmd = s.curCmd := rfl
@[simp] theorem fail_busy (c : ErrCode) (s : State) : (fail c s).busy = s.busy := rfl
@[simp] theorem fail_done (c : ErrCode) (s : State) : (fail c s).done = true := rfl
@[simp] theorem fail_err (c : ErrCode) (s : State) : (fail c s).err = true := rfl
@[simp] theorem fail_ovf (c : ErrCode) (s : State) : (fail c s).ovf = s.ovf := rfl
@[simp] theorem fail_cmdOvr (c : ErrCode) (s : State) : (fail c s).cmdOvr = s.cmdOvr := rfl
@[simp] theorem fail_busErr (c : ErrCode) (s : State) : (fail c s).busErr = s.busErr := rfl
@[simp] theorem fail_gswState (c : ErrCode) (s : State) : (fail c s).gswState = s.gswState := rfl
@[simp] theorem fail_errCode (c : ErrCode) (s : State) : (fail c s).errCode = if s.err then s.errCode else some c :=
    rfl
@[simp] theorem fail_irqEn (c : ErrCode) (s : State) : (fail c s).irqEn = s.irqEn := rfl
@[simp] theorem fail_cmdCount (c : ErrCode) (s : State) : (fail c s).cmdCount = s.cmdCount := rfl
@[simp] theorem fail_mem (c : ErrCode) (s : State) : (fail c s).mem = s.mem := rfl
@[simp] theorem fail_epoch (c : ErrCode) (s : State) : (fail c s).epoch = s.epoch := rfl
@[simp] theorem fail_agenda (c : ErrCode) (s : State) : (fail c s).agenda = s.agenda := rfl
@[simp] theorem fail_resp (c : ErrCode) (s : State) : (fail c s).resp = s.resp := rfl

@[simp] theorem acknowledge_params (w : Word) (s : State) : (acknowledge w s).params = s.params := rfl
@[simp] theorem acknowledge_cfg (w : Word) (s : State) : (acknowledge w s).cfg = s.cfg := rfl
@[simp] theorem acknowledge_shift (w : Word) (s : State) : (acknowledge w s).shift = s.shift := rfl
@[simp] theorem acknowledge_const (w : Word) (s : State) : (acknowledge w s).const = s.const := rfl
@[simp] theorem acknowledge_shape (w : Word) (s : State) : (acknowledge w s).shape = s.shape := rfl
@[simp] theorem acknowledge_lastCmd (w : Word) (s : State) : (acknowledge w s).lastCmd = s.lastCmd := rfl
@[simp] theorem acknowledge_curCmd (w : Word) (s : State) : (acknowledge w s).curCmd = s.curCmd := rfl
@[simp] theorem acknowledge_busy (w : Word) (s : State) : (acknowledge w s).busy = s.busy := rfl
@[simp] theorem acknowledge_done (w : Word) (s : State) : (acknowledge w s).done = (s.done && !w.getLsbD 1) := rfl
@[simp] theorem acknowledge_err (w : Word) (s : State) : (acknowledge w s).err = (s.err && !w.getLsbD 2) := rfl
@[simp] theorem acknowledge_ovf (w : Word) (s : State) : (acknowledge w s).ovf = (s.ovf && !w.getLsbD 3) := rfl
@[simp] theorem acknowledge_cmdOvr (w : Word) (s : State) : (acknowledge w s).cmdOvr = (s.cmdOvr && !w.getLsbD 4) :=
    rfl
@[simp] theorem acknowledge_busErr (w : Word) (s : State) : (acknowledge w s).busErr = (s.busErr && !w.getLsbD 5) :=
    rfl
@[simp] theorem acknowledge_gswState (w : Word) (s : State) : (acknowledge w s).gswState = s.gswState := rfl
@[simp] theorem acknowledge_errCode (w : Word) (s : State) : (acknowledge w s).errCode = if w.getLsbD 2 then none else s.errCode :=
    rfl
@[simp] theorem acknowledge_irqEn (w : Word) (s : State) : (acknowledge w s).irqEn = s.irqEn := rfl
@[simp] theorem acknowledge_cmdCount (w : Word) (s : State) : (acknowledge w s).cmdCount = s.cmdCount := rfl
@[simp] theorem acknowledge_mem (w : Word) (s : State) : (acknowledge w s).mem = s.mem := rfl
@[simp] theorem acknowledge_epoch (w : Word) (s : State) : (acknowledge w s).epoch = s.epoch := rfl
@[simp] theorem acknowledge_agenda (w : Word) (s : State) : (acknowledge w s).agenda = s.agenda := rfl
@[simp] theorem acknowledge_resp (w : Word) (s : State) : (acknowledge w s).resp = s.resp := rfl

@[simp] theorem finish_params (c : Calc State) : (finish c).params = c.val.params := rfl
@[simp] theorem finish_cfg (c : Calc State) : (finish c).cfg = c.val.cfg := rfl
@[simp] theorem finish_shift (c : Calc State) : (finish c).shift = c.val.shift := rfl
@[simp] theorem finish_const (c : Calc State) : (finish c).const = c.val.const := rfl
@[simp] theorem finish_shape (c : Calc State) : (finish c).shape = c.val.shape := rfl
@[simp] theorem finish_lastCmd (c : Calc State) : (finish c).lastCmd = c.val.lastCmd := rfl
@[simp] theorem finish_curCmd (c : Calc State) : (finish c).curCmd = 0 := rfl
@[simp] theorem finish_busy (c : Calc State) : (finish c).busy = false := rfl
@[simp] theorem finish_done (c : Calc State) : (finish c).done = true := rfl
@[simp] theorem finish_err (c : Calc State) : (finish c).err = c.val.err := rfl
@[simp] theorem finish_ovf (c : Calc State) : (finish c).ovf = (c.val.ovf || c.ovf) := rfl
@[simp] theorem finish_cmdOvr (c : Calc State) : (finish c).cmdOvr = c.val.cmdOvr := rfl
@[simp] theorem finish_busErr (c : Calc State) : (finish c).busErr = c.val.busErr := rfl
@[simp] theorem finish_gswState (c : Calc State) : (finish c).gswState = c.val.gswState := rfl
@[simp] theorem finish_errCode (c : Calc State) : (finish c).errCode = c.val.errCode := rfl
@[simp] theorem finish_irqEn (c : Calc State) : (finish c).irqEn = c.val.irqEn := rfl
@[simp] theorem finish_cmdCount (c : Calc State) : (finish c).cmdCount = c.val.cmdCount + 1 := rfl
@[simp] theorem finish_mem (c : Calc State) : (finish c).mem = c.val.mem := rfl
@[simp] theorem finish_epoch (c : Calc State) : (finish c).epoch = c.val.epoch := rfl
@[simp] theorem finish_agenda (c : Calc State) : (finish c).agenda = c.val.agenda := rfl
@[simp] theorem finish_resp (c : Calc State) : (finish c).resp = c.val.resp := rfl

@[simp] theorem accept_params (w : Word) (s : State) : (accept w s).params = s.params := rfl
@[simp] theorem accept_cfg (w : Word) (s : State) : (accept w s).cfg = s.cfg := rfl
@[simp] theorem accept_shift (w : Word) (s : State) : (accept w s).shift = s.shift := rfl
@[simp] theorem accept_const (w : Word) (s : State) : (accept w s).const = s.const := rfl
@[simp] theorem accept_shape (w : Word) (s : State) : (accept w s).shape = s.shape := rfl
@[simp] theorem accept_lastCmd (w : Word) (s : State) : (accept w s).lastCmd = s.lastCmd := rfl
@[simp] theorem accept_curCmd (w : Word) (s : State) : (accept w s).curCmd = w := rfl
@[simp] theorem accept_busy (w : Word) (s : State) : (accept w s).busy = true := rfl
@[simp] theorem accept_done (w : Word) (s : State) : (accept w s).done = s.done := rfl
@[simp] theorem accept_err (w : Word) (s : State) : (accept w s).err = s.err := rfl
@[simp] theorem accept_ovf (w : Word) (s : State) : (accept w s).ovf = s.ovf := rfl
@[simp] theorem accept_cmdOvr (w : Word) (s : State) : (accept w s).cmdOvr = s.cmdOvr := rfl
@[simp] theorem accept_busErr (w : Word) (s : State) : (accept w s).busErr = s.busErr := rfl
@[simp] theorem accept_gswState (w : Word) (s : State) : (accept w s).gswState = s.gswState := rfl
@[simp] theorem accept_errCode (w : Word) (s : State) : (accept w s).errCode = s.errCode := rfl
@[simp] theorem accept_irqEn (w : Word) (s : State) : (accept w s).irqEn = s.irqEn := rfl
@[simp] theorem accept_cmdCount (w : Word) (s : State) : (accept w s).cmdCount = s.cmdCount := rfl
@[simp] theorem accept_mem (w : Word) (s : State) : (accept w s).mem = s.mem := rfl
@[simp] theorem accept_epoch (w : Word) (s : State) : (accept w s).epoch = s.epoch := rfl
@[simp] theorem accept_agenda (w : Word) (s : State) : (accept w s).agenda = s.agenda := rfl
@[simp] theorem accept_resp (w : Word) (s : State) : (accept w s).resp = s.resp := rfl

@[simp] theorem withdraw_params (s : State) : (withdraw s).params = s.params := rfl
@[simp] theorem withdraw_cfg (s : State) : (withdraw s).cfg = s.cfg := rfl
@[simp] theorem withdraw_shift (s : State) : (withdraw s).shift = s.shift := rfl
@[simp] theorem withdraw_const (s : State) : (withdraw s).const = s.const := rfl
@[simp] theorem withdraw_shape (s : State) : (withdraw s).shape = s.shape := rfl
@[simp] theorem withdraw_lastCmd (s : State) : (withdraw s).lastCmd = s.lastCmd := rfl
@[simp] theorem withdraw_curCmd (s : State) : (withdraw s).curCmd = 0 := rfl
@[simp] theorem withdraw_busy (s : State) : (withdraw s).busy = false := rfl
@[simp] theorem withdraw_done (s : State) : (withdraw s).done = s.done := rfl
@[simp] theorem withdraw_err (s : State) : (withdraw s).err = s.err := rfl
@[simp] theorem withdraw_ovf (s : State) : (withdraw s).ovf = s.ovf := rfl
@[simp] theorem withdraw_cmdOvr (s : State) : (withdraw s).cmdOvr = s.cmdOvr := rfl
@[simp] theorem withdraw_busErr (s : State) : (withdraw s).busErr = s.busErr := rfl
@[simp] theorem withdraw_gswState (s : State) : (withdraw s).gswState = s.gswState := rfl
@[simp] theorem withdraw_errCode (s : State) : (withdraw s).errCode = s.errCode := rfl
@[simp] theorem withdraw_irqEn (s : State) : (withdraw s).irqEn = s.irqEn := rfl
@[simp] theorem withdraw_cmdCount (s : State) : (withdraw s).cmdCount = s.cmdCount := rfl
@[simp] theorem withdraw_mem (s : State) : (withdraw s).mem = s.mem := rfl
@[simp] theorem withdraw_epoch (s : State) : (withdraw s).epoch = s.epoch := rfl
@[simp] theorem withdraw_agenda (s : State) : (withdraw s).agenda = s.agenda := rfl
@[simp] theorem withdraw_resp (s : State) : (withdraw s).resp = s.resp := rfl

@[simp] theorem respond_params (d : Option Word) (s : State) : (respond d s).params = s.params := rfl
@[simp] theorem respond_cfg (d : Option Word) (s : State) : (respond d s).cfg = s.cfg := rfl
@[simp] theorem respond_shift (d : Option Word) (s : State) : (respond d s).shift = s.shift := rfl
@[simp] theorem respond_const (d : Option Word) (s : State) : (respond d s).const = s.const := rfl
@[simp] theorem respond_shape (d : Option Word) (s : State) : (respond d s).shape = s.shape := rfl
@[simp] theorem respond_lastCmd (d : Option Word) (s : State) : (respond d s).lastCmd = s.lastCmd := rfl
@[simp] theorem respond_curCmd (d : Option Word) (s : State) : (respond d s).curCmd = s.curCmd := rfl
@[simp] theorem respond_busy (d : Option Word) (s : State) : (respond d s).busy = s.busy := rfl
@[simp] theorem respond_done (d : Option Word) (s : State) : (respond d s).done = s.done := rfl
@[simp] theorem respond_err (d : Option Word) (s : State) : (respond d s).err = s.err := rfl
@[simp] theorem respond_ovf (d : Option Word) (s : State) : (respond d s).ovf = s.ovf := rfl
@[simp] theorem respond_cmdOvr (d : Option Word) (s : State) : (respond d s).cmdOvr = s.cmdOvr := rfl
@[simp] theorem respond_busErr (d : Option Word) (s : State) : (respond d s).busErr = s.busErr := rfl
@[simp] theorem respond_gswState (d : Option Word) (s : State) : (respond d s).gswState = s.gswState := rfl
@[simp] theorem respond_errCode (d : Option Word) (s : State) : (respond d s).errCode = s.errCode := rfl
@[simp] theorem respond_irqEn (d : Option Word) (s : State) : (respond d s).irqEn = s.irqEn := rfl
@[simp] theorem respond_cmdCount (d : Option Word) (s : State) : (respond d s).cmdCount = s.cmdCount := rfl
@[simp] theorem respond_mem (d : Option Word) (s : State) : (respond d s).mem = s.mem := rfl
@[simp] theorem respond_epoch (d : Option Word) (s : State) : (respond d s).epoch = s.epoch := rfl
@[simp] theorem respond_agenda (d : Option Word) (s : State) : (respond d s).agenda = s.agenda := rfl
@[simp] theorem respond_resp (d : Option Word) (s : State) : (respond d s).resp = some { data := d, error := false } :=
    rfl

@[simp] theorem busError_params (b : Bool) (s : State) : (busError b s).params = s.params := rfl
@[simp] theorem busError_cfg (b : Bool) (s : State) : (busError b s).cfg = s.cfg := rfl
@[simp] theorem busError_shift (b : Bool) (s : State) : (busError b s).shift = s.shift := rfl
@[simp] theorem busError_const (b : Bool) (s : State) : (busError b s).const = s.const := rfl
@[simp] theorem busError_shape (b : Bool) (s : State) : (busError b s).shape = s.shape := rfl
@[simp] theorem busError_lastCmd (b : Bool) (s : State) : (busError b s).lastCmd = s.lastCmd := rfl
@[simp] theorem busError_curCmd (b : Bool) (s : State) : (busError b s).curCmd = s.curCmd := rfl
@[simp] theorem busError_busy (b : Bool) (s : State) : (busError b s).busy = s.busy := rfl
@[simp] theorem busError_done (b : Bool) (s : State) : (busError b s).done = s.done := rfl
@[simp] theorem busError_err (b : Bool) (s : State) : (busError b s).err = s.err := rfl
@[simp] theorem busError_ovf (b : Bool) (s : State) : (busError b s).ovf = s.ovf := rfl
@[simp] theorem busError_cmdOvr (b : Bool) (s : State) : (busError b s).cmdOvr = s.cmdOvr := rfl
@[simp] theorem busError_busErr (b : Bool) (s : State) : (busError b s).busErr = true := rfl
@[simp] theorem busError_gswState (b : Bool) (s : State) : (busError b s).gswState = s.gswState := rfl
@[simp] theorem busError_errCode (b : Bool) (s : State) : (busError b s).errCode = s.errCode := rfl
@[simp] theorem busError_irqEn (b : Bool) (s : State) : (busError b s).irqEn = s.irqEn := rfl
@[simp] theorem busError_cmdCount (b : Bool) (s : State) : (busError b s).cmdCount = s.cmdCount := rfl
@[simp] theorem busError_mem (b : Bool) (s : State) : (busError b s).mem = s.mem := rfl
@[simp] theorem busError_epoch (b : Bool) (s : State) : (busError b s).epoch = s.epoch := rfl
@[simp] theorem busError_agenda (b : Bool) (s : State) : (busError b s).agenda = s.agenda := rfl
@[simp] theorem busError_resp (b : Bool) (s : State) : (busError b s).resp = some { data := if b then none else some 0, error := true } :=
    rfl

@[simp] theorem inFlight_params (w : Word) (s : State) : (inFlight w s).params = s.params := rfl
@[simp] theorem inFlight_cfg (w : Word) (s : State) : (inFlight w s).cfg = s.cfg := rfl
@[simp] theorem inFlight_shift (w : Word) (s : State) : (inFlight w s).shift = s.shift := rfl
@[simp] theorem inFlight_const (w : Word) (s : State) : (inFlight w s).const = s.const := rfl
@[simp] theorem inFlight_shape (w : Word) (s : State) : (inFlight w s).shape = s.shape := rfl
@[simp] theorem inFlight_lastCmd (w : Word) (s : State) : (inFlight w s).lastCmd = w := rfl
@[simp] theorem inFlight_curCmd (w : Word) (s : State) : (inFlight w s).curCmd = w := rfl
@[simp] theorem inFlight_busy (w : Word) (s : State) : (inFlight w s).busy = true := rfl
@[simp] theorem inFlight_done (w : Word) (s : State) : (inFlight w s).done = s.done := rfl
@[simp] theorem inFlight_err (w : Word) (s : State) : (inFlight w s).err = s.err := rfl
@[simp] theorem inFlight_ovf (w : Word) (s : State) : (inFlight w s).ovf = s.ovf := rfl
@[simp] theorem inFlight_cmdOvr (w : Word) (s : State) : (inFlight w s).cmdOvr = s.cmdOvr := rfl
@[simp] theorem inFlight_busErr (w : Word) (s : State) : (inFlight w s).busErr = s.busErr := rfl
@[simp] theorem inFlight_gswState (w : Word) (s : State) : (inFlight w s).gswState = s.gswState := rfl
@[simp] theorem inFlight_errCode (w : Word) (s : State) : (inFlight w s).errCode = s.errCode := rfl
@[simp] theorem inFlight_irqEn (w : Word) (s : State) : (inFlight w s).irqEn = s.irqEn := rfl
@[simp] theorem inFlight_cmdCount (w : Word) (s : State) : (inFlight w s).cmdCount = s.cmdCount := rfl
@[simp] theorem inFlight_mem (w : Word) (s : State) : (inFlight w s).mem = s.mem := rfl
@[simp] theorem inFlight_epoch (w : Word) (s : State) : (inFlight w s).epoch = s.epoch := rfl
@[simp] theorem inFlight_agenda (w : Word) (s : State) : (inFlight w s).agenda = .engine :: s.agenda := rfl
@[simp] theorem inFlight_resp (w : Word) (s : State) : (inFlight w s).resp = s.resp := rfl

/-- A reset sets every register to its reset value and forgets memory; only the agenda goes on. -/
theorem applyReset_eq (s : State) :
    applyReset s = setAgenda s.agenda (State.afterReset s.params (s.epoch + 1)) := rfl

end Sys2Proof.Machine
end

