-- ==== Sys2Proof/Laws/Memory.lean ====
section
/-! SUPPORT. The laws of memory: what a store changes, what it leaves alone, and that it keeps the canonical form. -/

namespace Sys2Proof.Machine

/-! ### The list -/

theorem Memory.get?_append (m k : Memory) (a : Nat) :
    Memory.get? (m ++ k) a = (Memory.get? m a).or (Memory.get? k a) := by
  induction m with
  | nil => rfl
  | cons c m ih =>
    simp only [List.cons_append, Memory.get?]
    split <;> simp [ih]

/-- Filtering by the offset keeps exactly the words whose offset passes. -/
theorem Memory.get?_filter (f : Nat → Bool) (m : Memory) (a : Nat) :
    Memory.get? (m.filter (fun c => f c.1)) a = if f a then Memory.get? m a else none := by
  induction m with
  | nil => simp [Memory.get?]
  | cons c m ih =>
    by_cases hc : f c.1 <;> by_cases ha : c.1 = a
    · subst ha; simp [Memory.get?, hc]
    · simp [Memory.get?, hc, ha, ih]
    · subst ha; simp [hc, ih]
    · simp [Memory.get?, hc, ha, ih]

theorem Memory.get?_cells_outside (base : Nat) (ws : List Word) (a : Nat)
    (h : a < base ∨ base + 4 * ws.length ≤ a) : Memory.get? (Memory.cells base ws) a = none := by
  induction ws generalizing base with
  | nil => rfl
  | cons w ws ih =>
    simp only [List.length_cons] at h
    simp only [Memory.cells, Memory.get?]
    rw [if_neg (by omega)]
    exact ih (base + 4) (by omega)

theorem Memory.get?_cells_inside (base : Nat) (ws : List Word) (i : Nat) (h : i < ws.length) :
    Memory.get? (Memory.cells base ws) (base + 4 * i) = some ws[i] := by
  induction ws generalizing base i with
  | nil => simp at h
  | cons w ws ih =>
    cases i with
    | zero => simp [Memory.cells, Memory.get?]
    | succ i =>
      simp only [Memory.cells, Memory.get?]
      rw [if_neg (by omega), show base + 4 * (i + 1) = base + 4 + 4 * i by ring]
      simpa using ih (base + 4) i (by simpa using h)

/-- A store leaves every other offset alone. -/
theorem Memory.get?_store_outside (m : Memory) (base : Nat) (ws : List Word) (a : Nat)
    (h : a < base ∨ base + 4 * ws.length ≤ a) : Memory.get? (m.store base ws) a = Memory.get? m a := by
  have h1 := Memory.get?_filter (fun k => Nat.blt k base) m a
  have h2 := Memory.get?_filter (fun k => Nat.ble (base + 4 * ws.length) k) m a
  simp only [Memory.store, Memory.get?_append, h1, h2, Memory.get?_cells_outside base ws a h]
  rcases h with h | h
  · simp [Nat.blt_eq, h, show ¬ base + 4 * ws.length ≤ a by omega]
  · simp [Nat.blt_eq, h, show ¬ a < base by omega]

/-- A store is read back. -/
theorem Memory.get?_store_inside (m : Memory) (base : Nat) (ws : List Word) (i : Nat) (h : i < ws.length) :
    Memory.get? (m.store base ws) (base + 4 * i) = some ws[i] := by
  have h1 := Memory.get?_filter (fun k => Nat.blt k base) m (base + 4 * i)
  simp only [Memory.store, Memory.get?_append, h1, Memory.get?_cells_inside base ws i h]
  simp [Nat.blt_eq]

/-- The window of a block reads like the memory inside the block. -/
theorem Memory.get?_window (m : Memory) (base count a : Nat) (h1 : base ≤ a) (h2 : a < base + 4 * count) :
    Memory.get? (m.window base count) a = Memory.get? m a := by
  have h := Memory.get?_filter (fun k => Nat.ble base k && Nat.blt k (base + 4 * count)) m a
  simp only [Memory.window, h]
  simp [Nat.blt_eq, h1, h2]

theorem Memory.mem_cells {base : Nat} {ws : List Word} {c : Nat × Word} (h : c ∈ Memory.cells base ws) :
    ∃ i, ∃ hi : i < ws.length, c = (base + 4 * i, ws[i]) := by
  induction ws generalizing base with
  | nil => simp [Memory.cells] at h
  | cons w ws ih =>
    simp only [Memory.cells, List.mem_cons] at h
    rcases h with rfl | h
    · exact ⟨0, by simp, by simp⟩
    · obtain ⟨i, hi, rfl⟩ := ih h
      exact ⟨i + 1, by simpa using hi, by simp; ring⟩

theorem Memory.cells_sorted (base : Nat) (ws : List Word) :
    (Memory.cells base ws).Pairwise (fun c d => c.1 < d.1) := by
  induction ws generalizing base with
  | nil => simp [Memory.cells]
  | cons w ws ih =>
    simp only [Memory.cells, List.pairwise_cons]
    refine ⟨fun c hc => ?_, ih (base + 4)⟩
    obtain ⟨i, _, rfl⟩ := Memory.mem_cells hc
    show base < base + 4 + 4 * i
    omega

/-- A store keeps the canonical form when it stays inside RING and FREQ and stores words as memory holds them. -/
theorem Memory.wf_store {p : Params} {m : Memory} (hm : Memory.wf p m) (base : Nat) (ws : List Word)
    (hw : ∀ (i : Nat) (h : i < ws.length), (p.isRing (base + 4 * i) || p.isFreq (base + 4 * i)) = true
      ∧ heldWord p (base + 4 * i) ws[i] = ws[i]) : Memory.wf p (m.store base ws) := by
  obtain ⟨hs, hc⟩ := hm
  constructor
  · simp only [Memory.store, List.pairwise_append, List.mem_append, List.mem_filter, Nat.blt_eq, Nat.ble_eq]
    refine ⟨⟨hs.filter _, Memory.cells_sorted base ws, fun a ha b hb => ?_⟩, hs.filter _, fun a ha b hb => ?_⟩
    · obtain ⟨i, _, rfl⟩ := Memory.mem_cells hb
      have := ha.2
      show a.1 < base + 4 * i
      omega
    · rcases ha with ha | ha
      · omega
      · obtain ⟨i, hi, rfl⟩ := Memory.mem_cells ha
        have := hb.2
        show base + 4 * i < b.1
        omega
  · intro c hcm
    simp only [Memory.store, List.mem_append, List.mem_filter] at hcm
    rcases hcm with (h | h) | h
    · exact hc c h.1
    · obtain ⟨i, hi, rfl⟩ := Memory.mem_cells h
      exact hw i hi
    · exact hc c h.1

/-! ### Reading words of a state -/

/-- A store leaves every other word alone. -/
theorem word_storeWords_outside (s : State) (base : Nat) (ws : List Word) (a : Nat)
    (h : a < base ∨ base + 4 * ws.length ≤ a) : (s.storeWords base ws).word a = s.word a := by
  simp only [State.word, State.wordIn, storeWords_mem, storeWords_params, storeWords_epoch,
    Memory.get?_store_outside _ _ _ _ h]

/-- A stored word is read back. -/
theorem word_storeWords_inside (s : State) (base : Nat) (ws : List Word) (i : Nat) (h : i < ws.length) :
    (s.storeWords base ws).word (base + 4 * i) = ws[i] := by
  simp only [State.word, State.wordIn, storeWords_mem, Memory.get?_store_inside _ _ _ _ h]

/-- A read through a window is a read of memory. -/
theorem wordIn_window (s : State) (base count a : Nat) (h1 : base ≤ a) (h2 : a < base + 4 * count) :
    s.wordIn (s.mem.window base count) a = s.word a := by
  simp only [State.word, State.wordIn, Memory.get?_window _ _ _ _ h1 h2]

theorem n_eq_two_l {p : Params} (h : 1 ≤ p.logn) : p.n = 2 * p.l := by
  obtain ⟨k, hk⟩ : ∃ k, p.logn = k + 1 := ⟨p.logn - 1, by omega⟩
  simp only [Params.n, Params.l, hk, Nat.add_sub_cancel, pow_succ]; ring

@[simp] theorem length_ringElem (s : State) (r : Nat) : (s.ringElem r).length = s.params.n := by
  simp [State.ringElem]

@[simp] theorem length_freqElem (s : State) (f : Nat) : (s.freqElem f).length = s.params.l := by
  simp [State.freqElem]

/-- A ring element is the list of its coefficients. -/
theorem getD_ringElem (s : State) (r c : Nat) (d : Word) (h : c < s.params.n) :
    (s.ringElem r).getD c d = s.ringCoef r c := by
  have : s.wordIn (s.mem.window (s.params.ringAddr r 0) s.params.n) (s.params.ringAddr r c) = s.ringCoef r c :=
    wordIn_window s _ _ _ (by simp only [Params.ringAddr]; omega) (by simp only [Params.ringAddr]; omega)
  simp [State.ringElem, List.getD_eq_getElem?_getD, h, this]

/-- A frequency element is the list of its entries. -/
theorem getD_freqElem (s : State) (f j : Nat) (d : Cplx) (h : j < s.params.l) :
    (s.freqElem f).getD j d = s.freqEntry f j := by
  have hw : ∀ q, q < 4 → s.wordIn (s.mem.window (s.params.freqAddr f 0 0) (4 * s.params.l)) (s.params.freqAddr f j q)
      = s.word (s.params.freqAddr f j q) := fun q hq =>
    wordIn_window s _ _ _ (by simp only [Params.freqAddr]; omega) (by simp only [Params.freqAddr]; omega)
  simp [State.freqElem, List.getD_eq_getElem?_getD, h, State.entryIn, State.freqEntry, hw, State.word]

/-! ### Components -/

/-- The two words of a component give the component back. -/
theorem component_words {p : Params} (h1 : 0 < p.dw) (h2 : p.dw ≤ 64) {v : Int} (hv : inRange p.dw v = true) :
    component p (low32 v) (low32 (v / pow2 32)) = v := by
  have e : Int.ofNat ((low32 (v / pow2 32)).toNat * 2 ^ 32 + (low32 v).toNat) = v % pow2 64 := by
    have p64 : pow2 64 = 18446744073709551616 := by decide
    have p32 : pow2 32 = 4294967296 := by decide
    rw [p64, p32]
    simp only [low32, Int.ofNat_eq_natCast, Nat.cast_add, Nat.cast_mul, BitVec.toNat_ofInt]
    omega
  have d : ∀ x : Int, sext p.dw (x % pow2 64) = sext p.dw x := by
    intro x
    have : x % pow2 64 % pow2 p.dw = x % pow2 p.dw := by
      apply Int.emod_emod_of_dvd
      rw [pow2_eq, pow2_eq]
      exact pow_dvd_pow 2 h2
    simp only [sext, this]
  rw [component, e, d, sext_of_inRange h1 hv]

@[simp] theorem component_zero (p : Params) : component p 0 0 = 0 := by
  simp [component]

/-- A component is always a DW-bit value (10_state.md R24). -/
theorem component_inRange {p : Params} (h : 0 < p.dw) (lo hi : Word) : inRange p.dw (component p lo hi) = true :=
  inRange_sext h _

/-! ### Elements after a store -/

theorem length_flatMap_entryWords (es : List Cplx) : (es.flatMap entryWords).length = 4 * es.length := by
  induction es with
  | nil => rfl
  | cons e es ih => simp [List.flatMap_cons, ih, entryWords, componentWords]; ring

theorem getElem?_flatMap_entryWords (es : List Cplx) (j : Nat) (q : Nat) (hq : q < 4) (h : j < es.length) :
    (es.flatMap entryWords)[4 * j + q]? = (entryWords es[j])[q]? := by
  induction es generalizing j with
  | nil => simp at h
  | cons e es ih =>
    have hl : (entryWords e).length = 4 := rfl
    cases j with
    | zero => simp [List.flatMap_cons, List.getElem?_append_left, hl, hq]
    | succ j =>
      have h' : j < es.length := by simpa using h
      rw [List.flatMap_cons, List.getElem?_append_right (by omega), hl,
        show 4 * (j + 1) + q - 4 = 4 * j + q by omega, ih j h']
      rfl

/-- The coefficients of a ring element just written. -/
theorem ringCoef_setRing_same (s : State) (r c : Nat) (ws : List Word) (h : c < ws.length) :
    (s.setRing r ws).ringCoef r c = ws[c] := by
  have e : s.params.ringAddr r c = s.params.ringAddr r 0 + 4 * c := by simp only [Params.ringAddr]; ring
  simp only [State.ringCoef, setRing_params, e]
  exact word_storeWords_inside s _ ws c h

/-- The entries of a frequency element just written with DW-bit values. -/
theorem freqEntry_setFreq_same (s : State) (f j : Nat) (es : List Cplx) (h1 : 0 < s.params.dw) (h2 : s.params.dw ≤ 64)
    (h : j < es.length) (hr : inRange s.params.dw es[j].re = true) (hi : inRange s.params.dw es[j].im = true) :
    (s.setFreq f es).freqEntry f j = es[j] := by
  have hw : ∀ q, (hq : q < 4) →
      (s.setFreq f es).wordIn (s.setFreq f es).mem (s.params.freqAddr f j q) = (entryWords es[j])[q]'hq := by
    intro q hq
    have hlen : 4 * j + q < (es.flatMap entryWords).length := by rw [length_flatMap_entryWords]; omega
    have e : s.params.freqAddr f j q = s.params.freqAddr f 0 0 + 4 * (4 * j + q) := by
      simp only [Params.freqAddr]; ring
    have hx := word_storeWords_inside s (s.params.freqAddr f 0 0) (es.flatMap entryWords) (4 * j + q) hlen
    have hy := getElem?_flatMap_entryWords es j q hq h
    rw [List.getElem?_eq_getElem hlen, List.getElem?_eq_getElem hq] at hy
    rw [e]
    exact hx.trans (Option.some.inj hy)
  have h0 := hw 0 (by omega)
  have h1' := hw 1 (by omega)
  have h2' := hw 2 (by omega)
  have h3 := hw 3 (by omega)
  simp only [State.freqEntry, State.entryIn, setFreq_params] at *
  rw [h0, h1', h2', h3]
  simp only [entryWords, componentWords, List.cons_append, List.nil_append, List.getElem_cons_zero,
    List.getElem_cons_succ, component_words h1 h2 hr, component_words h1 h2 hi]

/-- A ring element write leaves every other word alone. -/
theorem word_setRing_outside (s : State) (r : Nat) (ws : List Word) (a : Nat) (hl : ws.length = s.params.n)
    (h : ¬ InRing s.params r a) : (s.setRing r ws).word a = s.word a :=
  word_storeWords_outside s _ ws a (by rw [hl]; simp only [InRing, not_and, not_lt] at h; omega)

/-- A frequency element write leaves every other word alone. -/
theorem word_setFreq_outside (s : State) (f : Nat) (es : List Cplx) (a : Nat) (hl : es.length = s.params.l)
    (h : ¬ InFreq s.params f a) : (s.setFreq f es).word a = s.word a :=
  word_storeWords_outside s _ _ a (by
    rw [length_flatMap_entryWords, hl]; simp only [InFreq, not_and, not_lt] at h; omega)

end Sys2Proof.Machine
end

