-- ==== Sys2Proof/Laws/Exec.lean ====
section
/-! SUPPORT. What a command can do, said once: it fails as its check says, or its effect is applied and it completes. -/

namespace Sys2Proof.Machine

/-- The effect of a command, apart from its check and its completion. -/
def effect (i : Instr) (s : State) : Calc State :=
  match i with
  | .nop => Calc.exact s
  | .fftFwd f => transformInPlace .fwd f.toNat s
  | .fftInv f => transformInPlace .inv f.toNat s
  | .r2fT f r => ringToFreq f.toNat r.toNat s.tsh s
  | .r2fI f r => ringToFreq f.toNat r.toNat s.dsh s
  | .f2r r f => freqToRing r.toNat f.toNat s
  | .fclear f => Calc.exact (clearFreq f.toNat s)
  | .faddc f => addConst f.toNat s.const s
  | .fmac d a b => multiplyAccumulate d.toNat a.toNat b.toNat s
  | .decomp r a => Calc.exact (decompose r.toNat a.toNat s)
  | .gswAlloc => Calc.exact (setGswState .alloc (setShape s.cfg s))
  | .gswFree => Calc.exact (setGswState .free (setShape { k := 0, ell := 0, bgbit := 0 } s))
  | .gswClear => Calc.exact (setGswState .ready (clearStore s))
  | .gswAddg => addGadget s
  | .gswTof => (storeToFreq s).andThen (fun t => Calc.exact (setGswState .ready t))
  | .gswFromf => storeToRing s
  | .extprod => externalProduct s

/-- Every meaning is its check, then its failure or its completed effect. -/
theorem exec_eq_conclude (i : Instr) (s : State) : exec i s = conclude (check i s) s (effect i s) := by
  cases i <;> rfl

theorem conclude_some (c : ErrCode) (s : State) (e : Calc State) : conclude (some c) s e = .next (fail c s) := rfl

theorem conclude_none (s : State) (e : Calc State) : conclude none s e = .next (finish e) := rfl

/-- Everything a command can do. -/
theorem exec_cases (i : Instr) (s t : State) (h : exec i s = .next t) :
    (∃ c, check i s = some c ∧ t = fail c s) ∨ (check i s = none ∧ t = finish (effect i s)) := by
  rw [exec_eq_conclude] at h
  cases hc : check i s with
  | some c => rw [hc, conclude_some] at h; cases h; exact .inl ⟨c, rfl, rfl⟩
  | none => rw [hc, conclude_none] at h; cases h; exact .inr ⟨rfl, rfl⟩

/-- A check passes exactly when no cause of failure applies (60_exceptions.md R127). -/
theorem check_eq_none (i : Instr) (s : State) : check i s = none ↔
    (needsCfg i = true → s.cfgLegal = true) ∧ badId i s = false ∧ stateAllows i s.gswState = true
      ∧ (needsShape i = true → s.shape = s.cfg) := by
  unfold check
  cases needsCfg i <;> cases s.cfgLegal <;> cases badId i s <;> cases stateAllows i s.gswState <;>
    cases needsShape i <;> by_cases h : s.shape = s.cfg <;> simp [h]

/-- Everything a command word can do. -/
theorem runWord_cases (w : Word) (s t : State) (h : runWord w s = .next t) :
    (∃ c, checkWord w s = some c ∧ t = fail c s)
      ∨ (∃ i, decode w = .command i ∧ check i s = none ∧ t = finish (effect i s)) := by
  unfold runWord at h
  unfold checkWord
  cases hd : decode w with
  | illegal => rw [hd] at h; cases h; exact .inl ⟨.illegalOpc, rfl, rfl⟩
  | reserved => rw [hd] at h; cases h; exact .inl ⟨.rsvd, rfl, rfl⟩
  | command i =>
    rw [hd] at h
    rcases exec_cases i s t h with ⟨c, hc, rfl⟩ | ⟨hc, rfl⟩
    · exact .inl ⟨c, hc, rfl⟩
    · exact .inr ⟨i, rfl, hc, rfl⟩

/-- Everything the issue of a word can do (60_exceptions.md R129): it fails at once, or it is accepted. -/
theorem issue_cases (w : Word) (s t : State) (h : issue w s = .next t) :
    (∃ c, checkWord w (setLastCmd w s) = some c ∧ t = fail c (setLastCmd w s))
      ∨ (checkWord w (setLastCmd w s) = none ∧ t = accept w (setLastCmd w s)) := by
  unfold issue at h
  cases hc : checkWord w (setLastCmd w s) with
  | none => simp only [hc] at h; cases h; exact .inr ⟨rfl, rfl⟩
  | some c =>
    simp only [hc] at h
    rcases runWord_cases _ _ _ h with ⟨d, hd, rfl⟩ | ⟨i, hi, hn, rfl⟩
    · rw [hc] at hd; cases hd; exact .inl ⟨c, rfl, rfl⟩
    · simp only [checkWord, hi, hn] at hc; cases hc

/-- Everything the engine's move can do: nothing with no command in flight; otherwise the command in flight fails or
completes. -/
theorem engineMove_cases (s t : State) (h : engineMove s = .next t) :
    (s.busy = false ∧ t = s)
      ∨ (s.busy = true ∧ ∃ c, checkWord s.curCmd (withdraw s) = some c ∧ t = fail c (withdraw s))
      ∨ (s.busy = true ∧ ∃ i, decode s.curCmd = .command i ∧ check i (withdraw s) = none
          ∧ t = finish (effect i (withdraw s))) := by
  unfold engineMove at h
  cases hb : s.busy with
  | false => simp only [hb] at h; cases h; exact .inl ⟨rfl, rfl⟩
  | true =>
    simp only [hb, if_true] at h
    rcases runWord_cases _ _ _ h with hc | hc
    · exact .inr (.inl ⟨rfl, hc⟩)
    · exact .inr (.inr ⟨rfl, hc⟩)

/-- Everything a host read can do: answer a word, or answer a bus error. -/
theorem busRead_cases (a : Nat) (s : State) :
    (∃ w, readValue a s = some w ∧ busRead a s = respond (some w) s)
      ∨ (readValue a s = none ∧ busRead a s = busError false s) := by
  unfold busRead
  cases h : readValue a s with
  | some w => exact .inl ⟨w, rfl, rfl⟩
  | none => exact .inr ⟨rfl, rfl⟩

/-- Everything a host write can do (20_memory.md R66). -/
theorem busWrite_cases (a : Nat) (w : Word) (s t : State) (h : busWrite a w s = .next t) :
    t = busError true s
      ∨ (s.busy = false ∧ (t = respond none (setCfg (cfgOfWord w) s)
          ∨ t = respond none (setShift (shiftOfWord w) s) ∨ t = respond none (setConst w s)))
      ∨ t = respond none (acknowledge w s)
      ∨ t = respond none (setIrqEn (irqEnOfWord w) s)
      ∨ (s.busy = true ∧ t = overrun (respond none s))
      ∨ (s.busy = false ∧ issue w (respond none s) = .next t)
      ∨ (s.busy = false ∧ (target s.params a = .ring ∨ target s.params a = .freq)
          ∧ t = respond none (s.storeWords a [heldWord s.params a w])) := by
  unfold busWrite at h
  cases ht : target s.params a with
  | twrom i => simp only [ht] at h; cases h; simp
  | brrom i => simp only [ht] at h; cases h; simp
  | twist j b => simp only [ht] at h; cases h; simp
  | unmapped => simp only [ht] at h; cases h; simp
  | ring => simp only [ht, writeMem] at h; cases h; cases hb : s.busy <;> simp
  | freq => simp only [ht, writeMem] at h; cases h; cases hb : s.busy <;> simp
  | reg r =>
    simp only [ht] at h
    cases r <;> simp only [writeReg, writeCmd, respond_busy] at h
    case cmd =>
      cases hb : s.busy
      · simp only [hb] at h; simp at h; simp [h]
      · simp only [hb, if_true] at h; cases h; exact .inr (.inr (.inr (.inr (.inl ⟨rfl, rfl⟩))))
    all_goals cases h
    all_goals cases hb : s.busy <;> simp

/-- Everything a step can do: the engine moves, the host makes an access, or the platform resets the machine. -/
theorem step_cases (s t : State) (h : step s = .next t) : s.params.legal = true ∧
    ((s.agenda = [] ∧ engineMove s = .next t)
      ∨ ∃ e rest, s.agenda = e :: rest ∧ handle e (setAgenda rest s) = .next t) := by
  unfold step nextMove at h
  cases hl : s.params.legal with
  | false => simp [hl] at h
  | true =>
    simp only [hl, if_true] at h
    refine ⟨rfl, ?_⟩
    cases ha : s.agenda with
    | nil => simp only [ha] at h; exact .inl ⟨rfl, h⟩
    | cons e rest => simp only [ha] at h; exact .inr ⟨e, rest, rfl, h⟩

end Sys2Proof.Machine
end

