-- ==== Sys2Proof/Laws/Effect.lean ====
section
/-! SUPPORT. What the effect of a command can touch: memory alone, or memory with the state and shape of the store; and
which registers a check reads. -/

namespace Sys2Proof.Machine

/-- `t` is `s` but for memory. -/
abbrev OnlyMem (s t : State) : Prop := ∃ m, t = { s with mem := m }

theorem OnlyMem.refl (s : State) : OnlyMem s s := ⟨s.mem, rfl⟩

theorem OnlyMem.trans {s t u : State} (h : OnlyMem s t) (k : OnlyMem t u) : OnlyMem s u := by
  obtain ⟨m, rfl⟩ := h
  obtain ⟨m', rfl⟩ := k
  exact ⟨m', rfl⟩

theorem onlyMem_setRing (s : State) (r : Nat) (ws : List Word) : OnlyMem s (s.setRing r ws) := ⟨_, rfl⟩

theorem onlyMem_setFreq (s : State) (f : Nat) (es : List Cplx) : OnlyMem s (s.setFreq f es) := ⟨_, rfl⟩

/-- A loop whose every step changes memory alone changes memory alone. -/
theorem onlyMem_loop {α : Type} (f : State → α → Calc State) (hf : ∀ s x, OnlyMem s (f s x).val) (s : State)
    (l : List α) : OnlyMem s (Calc.loop f s l).val :=
  Calc.loop_keeps (OnlyMem s) f l (fun t x _ h => h.trans (hf t x)) s (OnlyMem.refl s)

/-- The same for a fold without overflow. -/
theorem onlyMem_foldl {α : Type} (f : State → α → State) (hf : ∀ s x, OnlyMem s (f s x)) (s : State) (l : List α) :
    OnlyMem s (l.foldl f s) := by
  induction l generalizing s with
  | nil => exact OnlyMem.refl s
  | cons x xs ih => exact (hf s x).trans (ih (f s x))

theorem onlyMem_transformInPlace (dir : Dir) (f : Nat) (s : State) : OnlyMem s (transformInPlace dir f s).val := ⟨_, rfl⟩
theorem onlyMem_ringToFreq (f r sh : Nat) (s : State) : OnlyMem s (ringToFreq f r sh s).val := ⟨_, rfl⟩
theorem onlyMem_freqToRing (r f : Nat) (s : State) : OnlyMem s (freqToRing r f s).val := ⟨_, rfl⟩
theorem onlyMem_clearFreq (f : Nat) (s : State) : OnlyMem s (clearFreq f s) := ⟨_, rfl⟩
theorem onlyMem_addConst (f : Nat) (c : Word) (s : State) : OnlyMem s (addConst f c s).val := ⟨_, rfl⟩
theorem onlyMem_multiplyAccumulate (d a b : Nat) (s : State) : OnlyMem s (multiplyAccumulate d a b s).val := ⟨_, rfl⟩

theorem onlyMem_decompose (r a : Nat) (s : State) : OnlyMem s (decompose r a s) :=
  onlyMem_foldl _ (fun _ _ => onlyMem_setRing _ _ _) s _

theorem onlyMem_clearStore (s : State) : OnlyMem s (clearStore s) :=
  onlyMem_foldl _ (fun _ _ => onlyMem_clearFreq _ _) s _

theorem onlyMem_addGadget (s : State) : OnlyMem s (addGadget s).val :=
  onlyMem_loop _ (fun _ _ => onlyMem_addConst _ _ _) s _

theorem onlyMem_storeToFreq (s : State) : OnlyMem s (storeToFreq s).val :=
  onlyMem_loop _ (fun _ _ => onlyMem_ringToFreq _ _ _ _) s _

theorem onlyMem_storeToRing (s : State) : OnlyMem s (storeToRing s).val :=
  onlyMem_loop _ (fun _ _ => onlyMem_freqToRing _ _ _) s _

theorem onlyMem_decomposeAcc (s : State) : OnlyMem s (decomposeAcc s) :=
  onlyMem_foldl _ (fun _ _ => onlyMem_decompose _ _ _) s _

theorem onlyMem_transformDigits (s : State) : OnlyMem s (transformDigits s).val :=
  onlyMem_loop _ (fun _ _ => onlyMem_ringToFreq _ _ _ _) s _

theorem onlyMem_clearTmp (s : State) : OnlyMem s (clearTmp s) :=
  onlyMem_foldl _ (fun _ _ => onlyMem_clearFreq _ _) s _

theorem onlyMem_accumulateRows (s : State) : OnlyMem s (accumulateRows s).val :=
  onlyMem_loop _ (fun _ _ => onlyMem_multiplyAccumulate _ _ _ _) s _

theorem onlyMem_convertBack (s : State) : OnlyMem s (convertBack s).val :=
  onlyMem_loop _ (fun _ _ => onlyMem_freqToRing _ _ _) s _

theorem onlyMem_externalProduct (s : State) : OnlyMem s (externalProduct s).val := by
  unfold externalProduct
  simp only [Calc.andThen_val, Calc.exact_val]
  exact (((onlyMem_decomposeAcc s).trans (onlyMem_transformDigits _)).trans (onlyMem_clearTmp _)).trans
    ((onlyMem_accumulateRows _).trans (onlyMem_convertBack _))

/-- The effect of any command touches nothing but memory, GSW_STATE and GSW_SHAPE (60_exceptions.md R132). -/
theorem effect_touches (i : Instr) (s : State) :
    ∃ m g c, (effect i s).val = { s with mem := m, gswState := g, shape := c } := by
  have h : ∀ {t : State}, OnlyMem s t → ∃ m g c, t = { s with mem := m, gswState := g, shape := c } := by
    rintro t ⟨m, rfl⟩
    exact ⟨m, s.gswState, s.shape, rfl⟩
  cases i
  case gswAlloc => exact ⟨_, _, _, rfl⟩
  case gswFree => exact ⟨_, _, _, rfl⟩
  case gswClear =>
    obtain ⟨m, hm⟩ := onlyMem_clearStore s
    exact ⟨m, .ready, s.shape, by simp only [effect, Calc.exact, hm, setGswState]⟩
  case gswTof =>
    obtain ⟨m, hm⟩ := onlyMem_storeToFreq s
    exact ⟨m, .ready, s.shape, by simp only [effect, Calc.andThen_val, Calc.exact_val, hm, setGswState]⟩
  case decomp r a => exact h (onlyMem_decompose _ _ _)
  case gswAddg => exact h (onlyMem_addGadget s)
  case gswFromf => exact h (onlyMem_storeToRing s)
  case extprod => exact h (onlyMem_externalProduct s)
  case nop => exact h (OnlyMem.refl s)
  all_goals exact h ⟨_, rfl⟩

/-- What a check reads: the synthesis parameters, CFG, SHIFT, GSW_STATE and GSW_SHAPE (60_exceptions.md R127, R130). -/
theorem check_congr (i : Instr) (s t : State) (h1 : t.params = s.params) (h2 : t.cfg = s.cfg) (h3 : t.shift = s.shift)
    (h4 : t.gswState = s.gswState) (h5 : t.shape = s.shape) : check i t = check i s := by
  cases s
  cases t
  subst h1 h2 h3 h4 h5
  rfl

/-- The same for a command word. -/
theorem checkWord_congr (w : Word) (s t : State) (h1 : t.params = s.params) (h2 : t.cfg = s.cfg)
    (h3 : t.shift = s.shift) (h4 : t.gswState = s.gswState) (h5 : t.shape = s.shape) :
    checkWord w t = checkWord w s := by
  unfold checkWord
  cases decode w with
  | illegal => rfl
  | reserved => rfl
  | command i => exact check_congr i s t h1 h2 h3 h4 h5

/-- Every command word has an outcome (60_exceptions.md R125). -/
theorem runWord_next (w : Word) (s : State) : ∃ t, runWord w s = .next t := by
  unfold runWord
  cases decode w with
  | illegal => exact ⟨_, rfl⟩
  | reserved => exact ⟨_, rfl⟩
  | command i => exact ⟨_, exec_eq_conclude i s⟩

end Sys2Proof.Machine
end

