-- ==== Sys2Proof/Laws/PerInstr.lean ====
section
/-! SUPPORT. Statements about every command as syntax, one lemma per constructor of Instr: the four fields of its word
(30_encoding.md R70, R73). -/

namespace Sys2Proof.Laws

open Sys2Proof

/-- The four fields of a command word are OPC, D, A and B. -/
structure FieldsAre (w : Word) (opc d a b : BitVec 8) : Prop where
  opc : opcField w = opc
  d : dField w = d
  a : aField w = a
  b : bField w = b

/-- A command word has the fields it is made of. -/
theorem fields_commandWord (opc d a b : BitVec 8) : FieldsAre (commandWord opc d a b) opc d a b := by
  constructor <;>
  · apply BitVec.eq_of_getElem_eq
    intro i hi
    simp only [opcField, dField, aField, bField, commandWord, BitVec.getElem_extractLsb', BitVec.getLsbD_append]
    repeat' split
    all_goals first
      | omega
      | (rw [← BitVec.getLsbD_eq_getElem]; congr 1; omega)

/-- A word is made of its four fields. -/
theorem commandWord_fields (w : Word) : commandWord (opcField w) (dField w) (aField w) (bField w) = w := by
  apply BitVec.eq_of_getElem_eq
  intro i hi
  rw [← BitVec.getLsbD_eq_getElem, ← BitVec.getLsbD_eq_getElem]
  simp only [commandWord, opcField, dField, aField, bField, BitVec.getLsbD_append, BitVec.getLsbD_extractLsb']
  repeat' split
  all_goals
    rw [decide_eq_true (by omega), Bool.true_and]
    congr 1
    omega

namespace EncodedFields

/-- The fields of the command's word: its opcode, its operands in the order D, A, B, and 0 in every unused field. -/
def Statement (i : Instr) : Prop :=
  match i with
  | .nop => FieldsAre (encode i) 0x00 0 0 0
  | .fftFwd f => FieldsAre (encode i) 0x01 f 0 0
  | .fftInv f => FieldsAre (encode i) 0x02 f 0 0
  | .r2fT f r => FieldsAre (encode i) 0x03 f r 0
  | .r2fI f r => FieldsAre (encode i) 0x04 f r 0
  | .f2r r f => FieldsAre (encode i) 0x05 r f 0
  | .fclear f => FieldsAre (encode i) 0x06 f 0 0
  | .faddc f => FieldsAre (encode i) 0x07 f 0 0
  | .fmac d a b => FieldsAre (encode i) 0x08 d a b
  | .decomp r a => FieldsAre (encode i) 0x10 r a 0
  | .gswAlloc => FieldsAre (encode i) 0x20 0 0 0
  | .gswFree => FieldsAre (encode i) 0x21 0 0 0
  | .gswClear => FieldsAre (encode i) 0x22 0 0 0
  | .gswAddg => FieldsAre (encode i) 0x23 0 0 0
  | .gswTof => FieldsAre (encode i) 0x24 0 0 0
  | .gswFromf => FieldsAre (encode i) 0x25 0 0 0
  | .extprod => FieldsAre (encode i) 0x30 0 0 0

theorem nop : Statement .nop := fields_commandWord _ _ _ _
theorem fftFwd (f : FreqId) : Statement (.fftFwd f) := fields_commandWord _ _ _ _
theorem fftInv (f : FreqId) : Statement (.fftInv f) := fields_commandWord _ _ _ _
theorem r2fT (f : FreqId) (r : RingId) : Statement (.r2fT f r) := fields_commandWord _ _ _ _
theorem r2fI (f : FreqId) (r : RingId) : Statement (.r2fI f r) := fields_commandWord _ _ _ _
theorem f2r (r : RingId) (f : FreqId) : Statement (.f2r r f) := fields_commandWord _ _ _ _
theorem fclear (f : FreqId) : Statement (.fclear f) := fields_commandWord _ _ _ _
theorem faddc (f : FreqId) : Statement (.faddc f) := fields_commandWord _ _ _ _
theorem fmac (d a b : FreqId) : Statement (.fmac d a b) := fields_commandWord _ _ _ _
theorem decomp (r a : RingId) : Statement (.decomp r a) := fields_commandWord _ _ _ _
theorem gswAlloc : Statement .gswAlloc := fields_commandWord _ _ _ _
theorem gswFree : Statement .gswFree := fields_commandWord _ _ _ _
theorem gswClear : Statement .gswClear := fields_commandWord _ _ _ _
theorem gswAddg : Statement .gswAddg := fields_commandWord _ _ _ _
theorem gswTof : Statement .gswTof := fields_commandWord _ _ _ _
theorem gswFromf : Statement .gswFromf := fields_commandWord _ _ _ _
theorem extprod : Statement .extprod := fields_commandWord _ _ _ _

end EncodedFields

end Sys2Proof.Laws
end

