-- ==== Sys2Proof/Laws/Transform.lean ====
section
/-! SUPPORT. What a butterfly and a stage can do to the list of entries (40_transform.md R85). -/

namespace Sys2Proof.Machine

/-- A butterfly keeps the number of entries. -/
@[simp] theorem butterfly_length (dw m : Nat) (dir : Dir) (y : List Cplx) (at_ : Nat × Nat) :
    (butterfly dw m dir y at_).val.length = y.length := by
  simp [butterfly]

/-- A butterfly writes its two entries and no other. -/
theorem butterfly_getD_other (dw m : Nat) (dir : Dir) (y : List Cplx) (b j i : Nat) (z : Cplx) (h1 : i ≠ b + j)
    (h2 : i ≠ b + j + m / 2) : (butterfly dw m dir y (b, j)).val.getD i z = y.getD i z := by
  simp [butterfly, List.getD_eq_getElem?_getD, Ne.symm h1, Ne.symm h2]

/-- The first entry of a butterfly becomes the fitted sum. -/
theorem butterfly_getD_lo (dw m : Nat) (dir : Dir) (y : List Cplx) (b j : Nat) (z : Cplx) (hm : 2 ≤ m)
    (h : b + j < y.length) : (butterfly dw m dir y (b, j)).val.getD (b + j) z
      = (addc dw (y.getD (b + j) Cplx.zero) (rot dw m j dir (y.getD (b + j + m / 2) Cplx.zero)).val).val := by
  simp [butterfly, List.getD_eq_getElem?_getD, h, List.getElem_set_ne (show b + j + m / 2 ≠ b + j by omega)]

/-- The second entry of a butterfly becomes the fitted difference. -/
theorem butterfly_getD_hi (dw m : Nat) (dir : Dir) (y : List Cplx) (b j : Nat) (z : Cplx)
    (h : b + j + m / 2 < y.length) : (butterfly dw m dir y (b, j)).val.getD (b + j + m / 2) z
      = (subc dw (y.getD (b + j) Cplx.zero) (rot dw m j dir (y.getD (b + j + m / 2) Cplx.zero)).val).val := by
  simp [butterfly, List.getD_eq_getElem?_getD, h]

/-- A stage keeps the number of entries. -/
@[simp] theorem stage_length (dw l : Nat) (dir : Dir) (y : List Cplx) (m : Nat) :
    (stage dw l dir y m).val.length = y.length :=
  Calc.loop_keeps (fun z => z.length = y.length) _ _ (fun z x _ hz => by rw [butterfly_length, hz]) y rfl

end Sys2Proof.Machine
end

