-- ==== Sys2Proof/Tests/Slice0.lean ====
section
/-! SUPPORT. Small tests: ill-formed terms refused, words decoded, one step per command against the vectors of
95_test_vectors.md, the host bus, and for every statement with hypotheses a state and operands that meet them. -/

namespace Sys2Proof.Tests
open Sys2Proof Sys2Proof.Machine

-- Theorems one after another: elaborated side by side, the kernel evaluations below wait for each other in too many
-- threads.
set_option Elab.async false

/-! ### Helpers -/

/-- The instance of the spec's vectors: LOGN = 4 (95_test_vectors.md). -/
def small : Params := { Params.default with logn := 4 }

/-- The instance LOGN = 3. -/
def tiny : Params := { Params.default with logn := 3 }

/-- The vectors' instance after reset. -/
def idle : State := State.afterReset small 0

/-- The instance LOGN = 3 after reset. -/
def idle3 : State := State.afterReset tiny 0

/-- The next state of a command. -/
def run (i : Instr) (s : State) : Option State :=
  match exec i s with
  | .next t => some t
  | .fault _ => none
  | .refused _ => none

/-- The next state of a step. -/
def stepped (s : State) : Option State :=
  match step s with
  | .next t => some t
  | .fault _ => none
  | .refused _ => none

/-- A state whose next event is `e`. -/
def facing (e : Event) (s : State) : State := { s with agenda := [e] }

/-- The response to a host access: data and whether it is an error. -/
def answer (a : Access) (s : State) : Option BusResp := (stepped (facing (.access a) s)).bind (fun t => t.resp)

/-- CFG and GSW_SHAPE hold the word, the store is READY. -/
def shaped (w : Word) (s : State) : State := { s with cfg := cfgOfWord w, shape := cfgOfWord w, gswState := .ready }

/-- N words from the first ones. -/
def padded (ws : List Word) : List Word := ws ++ List.replicate (16 - ws.length) 0

/-- A state with command word w in flight. -/
def flying (w : Word) (s : State) : State := { s with busy := true, curCmd := w, lastCmd := w }

/-! ### Well-formedness refuses -/

theorem test_legal_accepts : Params.default.legal = true ∧ small.legal = true ∧ tiny.legal = true := by decide

theorem test_legal_refuses_logn :
    ({ Params.default with logn := 2 }).legal = false ∧ ({ Params.default with logn := 14 }).legal = false := by decide

theorem test_legal_refuses_kMax :
    ({ Params.default with kMax := 0 }).legal = false ∧ ({ Params.default with kMax := 16 }).legal = false := by decide

theorem test_legal_refuses_ellMax :
    ({ Params.default with ellMax := 0 }).legal = false ∧ ({ Params.default with ellMax := 16 }).legal = false := by decide

theorem test_legal_refuses_ngr :
    ({ Params.default with ngr := 0 }).legal = false ∧ ({ Params.default with ngr := 256 }).legal = false := by decide

theorem test_legal_refuses_ngf :
    ({ Params.default with ngf := 0 }).legal = false ∧ ({ Params.default with ngf := 256 }).legal = false := by decide

theorem test_legal_refuses_dw :
    ({ Params.default with dw := 32 }).legal = false ∧ ({ Params.default with dw := 65 }).legal = false := by decide

theorem test_legal_refuses_rspace : ({ Params.default with ngr := 255, ngf := 1 }).rspace = 281
    ∧ ({ Params.default with ngr := 255, ngf := 1 }).legal = false := by decide

theorem test_legal_refuses_fspace : ({ Params.default with ngr := 1, ngf := 255 }).fspace = 281
    ∧ ({ Params.default with ngr := 1, ngf := 255 }).legal = false := by decide

theorem test_wellFormed_accepts : (Instr.fmac 33 33 33).wellFormed small = true
    ∧ (Instr.r2fT 33 33).wellFormed small = true ∧ (Instr.decomp 33 33).wellFormed small = true := by decide

theorem test_wellFormed_refuses_freq : (Instr.fmac 0 0 34).wellFormed small = false := by decide

theorem test_wellFormed_refuses_ring : (Instr.r2fT 0 34).wellFormed small = false := by decide

theorem test_wellFormed_refuses_run : (Instr.decomp 34 0).wellFormed small = false := by decide

/-! ### Decoding (words from 30_encoding.md R73 and the Encoding lines of R86 to R122) -/

theorem test_decode_nop : decode 0b00000000000000000000000000000000 = .command .nop := by decide
theorem test_decode_fftFwd : decode 0b00000001000110100000000000000000 = .command (.fftFwd 26) := by decide
theorem test_decode_fftInv : decode 0b00000010001000010000000000000000 = .command (.fftInv 33) := by decide
theorem test_decode_r2fT : decode 0b00000011000110100001101100000000 = .command (.r2fT 26 27) := by decide
theorem test_decode_r2fI : decode 0b00000100000110110001101000000000 = .command (.r2fI 27 26) := by decide
theorem test_decode_f2r : decode 0b00000101000111000001101000000000 = .command (.f2r 28 26) := by decide
theorem test_decode_fclear : decode 0b00000110000111000000000000000000 = .command (.fclear 28) := by decide
theorem test_decode_faddc : decode 0b00000111000110010000000000000000 = .command (.faddc 25) := by decide
theorem test_decode_fmac : decode 0b00001000000111000001101100011010 = .command (.fmac 28 27 26) := by decide
theorem test_decode_decomp : decode 0b00010000000110110001101000000000 = .command (.decomp 27 26) := by decide
theorem test_decode_gswAlloc : decode 0b00100000000000000000000000000000 = .command .gswAlloc := by decide
theorem test_decode_gswFree : decode 0b00100001000000000000000000000000 = .command .gswFree := by decide
theorem test_decode_gswClear : decode 0b00100010000000000000000000000000 = .command .gswClear := by decide
theorem test_decode_gswAddg : decode 0b00100011000000000000000000000000 = .command .gswAddg := by decide
theorem test_decode_gswTof : decode 0b00100100000000000000000000000000 = .command .gswTof := by decide
theorem test_decode_gswFromf : decode 0b00100101000000000000000000000000 = .command .gswFromf := by decide
theorem test_decode_extprod : decode 0b00110000000000000000000000000000 = .command .extprod := by decide

/-- T33, T33b and the borders of the illegal ranges (30_encoding.md R74). -/
theorem test_decode_illegal : ([0xFF000000, 0x09000000, 0x0F000000, 0x11000000, 0x1F000000, 0x26000000, 0x2F000000,
    0x31000000] : List Word).all (fun w => decode w == .illegal) = true := by decide

/-- T34, T34b, T34c, the example of R122, and a nonzero field of each shape. -/
theorem test_decode_reserved : ([0x00000001, 0x01000100, 0x01220100, 0x00000100, 0x03000001, 0x10000001, 0x20010000,
    0x30000100, 0x06000001] : List Word).all (fun w => decode w == .reserved) = true := by decide

theorem test_decodeTableWord : decodeTableWord 32 0x081C1B1A = some (.fmac 28 27 26)
    ∧ decodeTableWord 32 0x09000000 = none := by decide

/-! ### Primitives and tables (T0a to T0f, T8, T9, T9b) -/

theorem test_rnd : [rnd 1 1, rnd (-1) 1, rnd 3 1, rnd (-3) 1, rnd 5 1, rnd (-5) 1, rnd (-6) 2, rnd (-7) 2]
    = [1, 0, 2, -1, 3, -2, -1, -2] := by decide

theorem test_fit : fit 64 (2 ^ 63) = ⟨-(2 ^ 63), true⟩ ∧ fit 64 (-(2 ^ 63) - 1) = ⟨2 ^ 63 - 1, true⟩ := by decide +kernel

theorem test_cmul30 : cmul30 64 ⟨759250125, 759250125⟩ ⟨2 ^ 30, 0⟩ = ⟨⟨759250125, 759250125⟩, false⟩ := by decide +kernel

theorem test_brrom : (List.range 8).map (brrom small) = [0, 4, 2, 6, 1, 5, 3, 7] := by decide

/-- The 24 words of 40_transform.md R83. -/
theorem test_twrom : (List.range 24).map (fun i => low32 (twrom i))
    = [0x40000000, 0x00000000, 0x2D413CCD, 0x2D413CCD, 0x00000000, 0x40000000, 0xD2BEC333, 0x2D413CCD,
      0x40000000, 0x00000000, 0x3B20D79E, 0x187DE2A7, 0x2D413CCD, 0x2D413CCD, 0x187DE2A7, 0x3B20D79E,
      0x00000000, 0x40000000, 0xE7821D59, 0x3B20D79E, 0xD2BEC333, 0x2D413CCD, 0xC4DF2862, 0x187DE2A7] := by
  decide +kernel

/-! ### One step per command -/

/-- NOP after reset (43_extprod.md R122): DONE = 1 and CMD_COUNT = 1. -/
theorem test_nop : (run .nop idle).map (fun t => (t.statusWord, t.cmdCount)) = some (0x00000002, 1) := by decide +kernel

/-- T7. -/
theorem test_fftFwd : (run (.fftFwd 26) (idle.setFreq 26 ((List.range 8).map (fun n => ⟨100 * n, -7 * n⟩)))).map
      (fun t => (t.freqElem 26, t.ovf))
    = some ([⟨2800, -196⟩, ⟨-332, 994⟩, ⟨-372, 428⟩, ⟨-388, 194⟩, ⟨-400, 28⟩, ⟨-412, -138⟩, ⟨-428, -372⟩,
        ⟨-468, -938⟩], false) := by
  decide +kernel

/-- T7f: the rotation by -i negates the most negative value, wraps and sets OVF. -/
theorem test_fftFwd_overflow : (run (.fftFwd 26) (idle3.setFreq 26 [⟨0, 0⟩, ⟨-(2 ^ 63), 0⟩, ⟨0, 0⟩, ⟨0, 0⟩])).map
      (fun t => (t.freqElem 26, t.ovf))
    = some ([⟨-(2 ^ 63), 0⟩, ⟨0, -(2 ^ 63)⟩, ⟨-(2 ^ 63), 0⟩, ⟨0, -(2 ^ 63)⟩], true) := by
  decide +kernel

/-- T5: ties go toward plus infinity in the 1/L scale. -/
theorem test_fftInv : (run (.fftInv 26) (idle.setFreq 26 (⟨4, -4⟩ :: List.replicate 7 ⟨0, 0⟩))).map
      (fun t => (t.freqElem 26, t.ovf)) = some (List.replicate 8 ⟨1, 0⟩, false) := by
  decide +kernel

/-- T7b. -/
theorem test_fftInv_of_fftFwd : (run (.fftInv 33) (idle.setFreq 33 [⟨2800, -196⟩, ⟨-332, 994⟩, ⟨-372, 428⟩, ⟨-388, 194⟩,
      ⟨-400, 28⟩, ⟨-412, -138⟩, ⟨-428, -372⟩, ⟨-468, -938⟩])).map (fun t => (t.freqElem 33, t.ovf))
    = some ((List.range 8).map (fun n => ⟨100 * n, -7 * n⟩), false) := by
  decide +kernel

/-- The spectrum of T11. -/
def spectrum11 : List Cplx :=
  [⟨1028428, 204567⟩, ⟨871859, -582558⟩, ⟨204567, -1028428⟩, ⟨-582558, -871859⟩, ⟨-1028428, -204567⟩,
    ⟨-871859, 582558⟩, ⟨-204567, 1028428⟩, ⟨582558, 871859⟩]

/-- T11. -/
theorem test_r2fT : (run (.r2fT 26 27) (idle.setRing 27 (padded [0, 0x00100000]))).map (fun t => (t.freqElem 26, t.ovf))
    = some (spectrum11, false) := by
  decide +kernel

/-- T12: the word 0x80000000 reads as -2^31. -/
theorem test_r2fT_sign : (run (.r2fT 26 27) (idle.setRing 27 (padded [0x80000000]))).map (fun t => t.freqElem 26)
    = some (List.replicate 8 ⟨-2147483648, 0⟩) := by
  decide +kernel

/-- T13: the scale is DSH. -/
theorem test_r2fI : (run (.r2fI 27 26) (idle.setRing 26 (padded [0, 0, 0, 0, 0, 0, 0, 0, 1]))).map
      (fun t => (t.freqElem 27, t.ovf)) = some (List.replicate 8 ⟨0, 4294967296⟩, false) := by
  decide +kernel

/-- T14b: the output of T14, with its two rounding errors. -/
theorem test_f2r : (run (.f2r 28 26) (idle.setFreq 26 [⟨7833464612, -2147480692⟩, ⟨-8672106067, -2147484607⟩,
      ⟨-2950213718, -2147484002⟩, ⟨-1320417657, -2147483805⟩, ⟨-347028100, -2147483676⟩, ⟨504863999, -2147483561⟩,
      ⟨1537779370, -2147483410⟩, ⟨3413659889, -2147483103⟩])).map (fun t => t.ringElem 28)
    = some [0x00000123, 0x10000123, 0x20000123, 0x30000123, 0x40000123, 0x50000122, 0x60000123, 0x70000123,
      0x80000123, 0x90000123, 0xA0000124, 0xB0000123, 0xC0000123, 0xD0000123, 0xE0000123, 0xF0000123] := by
  decide +kernel

/-- T11b: exact, at another destination. -/
theorem test_f2r_exact : (run (.f2r 0 33) (idle.setFreq 33 spectrum11)).map (fun t => t.ringElem 0)
    = some (padded [0, 0x00100000]) := by
  decide +kernel

/-- FCLEAR (41_frequency.md R99): OVF keeps its value. -/
theorem test_fclear : (run (.fclear 33) { idle with ovf := true }).map (fun t => (t.freqElem 33, t.ovf))
    = some (List.replicate 8 ⟨0, 0⟩, true) := by
  decide +kernel

/-- T22: the imaginary parts stay. -/
theorem test_faddc : (run (.faddc 26) { idle.setFreq 26 (List.replicate 8 ⟨1, 2⟩) with const := 0xF0000000 }).map
      (fun t => (t.freqElem 26, t.ovf)) = some (List.replicate 8 ⟨-268435455, 2⟩, false) := by
  decide +kernel

/-- T23: TSH = 8. -/
theorem test_faddc_scaled : (run (.faddc 26)
      { idle.setFreq 26 (List.replicate 8 ⟨0, 0⟩) with const := 0x80000000, shift := shiftOfWord 0x00202008 }).map
      (fun t => t.freqElem 26) = some (List.replicate 8 ⟨-549755813888, 0⟩) := by
  decide +kernel

/-- T18: the addition wraps. -/
theorem test_fmac_overflow : (run (.fmac 26 27 28)
      { ((idle.setFreq 26 (List.replicate 8 ⟨2 ^ 63 - 1, 0⟩)).setFreq 27 (List.replicate 8 ⟨1, 0⟩)).setFreq 28
          (List.replicate 8 ⟨1, 0⟩) with shift := shiftOfWord 0x00002000 }).map (fun t => (t.freqElem 26, t.ovf))
    = some (List.replicate 8 ⟨-(2 ^ 63), 0⟩, true) := by
  decide +kernel

/-- T20: D = A = B. -/
theorem test_fmac_same : (run (.fmac 26 26 26)
      { idle.setFreq 26 (List.replicate 8 ⟨2, 1⟩) with shift := shiftOfWord 0x00002000 }).map (fun t => (t.freqElem 26, t.ovf))
    = some (List.replicate 8 ⟨5, 5⟩, false) := by
  decide +kernel

/-- The state of P4 before its commands. -/
def p4 : State := { idle.setRing 26 (padded [0x12345678, 0, 0xFFFFFFFF, 0x12800000, 0x127FFFFF, 0x80000000]) with
  cfg := cfgOfWord 0x00040201 }

/-- P4, first command. -/
theorem test_decomp : (run (.decomp 27 26) p4).map (fun t => (t.ringElem 27, t.ringElem 28))
    = some (padded [1, 0, 0, 1, 1, 0xFFFFFFF8], padded [2, 0, 0, 3, 2]) := by
  decide +kernel

/-- P4, second command: the source lies inside the destination. -/
theorem test_decomp_overlap : (run (.decomp 26 26) p4).map (fun t => (t.ringElem 26, t.ringElem 27))
    = some (padded [1, 0, 0, 1, 1, 0xFFFFFFF8], padded [2, 0, 0, 3, 2]) := by
  decide +kernel

/-- T24 to T28. -/
theorem test_digits : digits 2 4 0x12345678 = [1, 2] ∧ digits 2 4 0xFFFFFFFF = [0, 0] ∧ digits 2 4 0x12800000 = [1, 3]
    ∧ digits 3 8 0x80000000 = [-128, 0, 0] ∧ digits 1 1 0x40000000 = [-1] ∧ digits 1 1 0xC0000000 = [0]
    ∧ digits 3 10 0xDEADBEEF = [-133, -292, -68] := by
  decide +kernel

/-- The example of 42_gsw.md R111. -/
theorem test_gswAlloc : (run .gswAlloc idle).map (fun t => (t.shape.word, t.statusWord)) = some (0x00080101, 0x00000042) := by
  decide +kernel

/-- 42_gsw.md R112, with a CFG that is not legal. -/
theorem test_gswFree : (run .gswFree { shaped 0x00080101 idle with cfg := cfgOfWord 0 }).map
    (fun t => (t.shape.word, t.statusWord)) = some (0x00000000, 0x00000002) := by
  decide +kernel

/-- The example of 42_gsw.md R113: ids 0 to 7 become zero, id 8 keeps its entries. -/
theorem test_gswClear : (run .gswClear ((shaped 0x00040201 idle).setFreq 8 (List.replicate 8 ⟨7, -7⟩))).map
      (fun t => ((List.range 8).all (fun f => t.freqElem f == List.replicate 8 ⟨0, 0⟩), t.freqElem 8, t.statusWord))
    = some (true, List.replicate 8 ⟨7, -7⟩, 0x00000082) := by
  decide +kernel

/-- T29. -/
theorem test_gswAddg : (run .gswAddg (clearStore (shaped 0x00040201 idle))).map
      (fun t => ((List.range 8).map (fun f => (t.freqEntry f 7).re), t.ovf))
    = some ([268435456, 0, 16777216, 0, 0, 268435456, 0, 16777216], false) := by
  decide +kernel

/-- T32: h_0 = 0x80000000 reads as -2^31. -/
theorem test_gswAddg_sign : (run .gswAddg (clearStore (shaped 0x00010101 idle))).map
      (fun t => ((List.range 4).map (fun f => (t.freqEntry f 0).re), t.ovf))
    = some ([-2147483648, 0, 0, -2147483648], false) := by
  decide +kernel

/-- The ring store of T31: GSWR(1,1) = X * 2^20, every other slot in use 0. -/
def store31 : State :=
  (List.range 8).foldl (fun s i => s.setRing (2 + i) (if i = 3 then padded [0, 0x00100000] else padded []))
    { shaped 0x00040201 idle with gswState := .alloc }

/-- T31. -/
theorem test_gswTof : (run .gswTof store31).map (fun t => (t.freqElem 3, t.freqElem 2, t.gswState))
    = some (spectrum11, List.replicate 8 ⟨0, 0⟩, .ready) := by
  decide +kernel

/-- The store of T29. -/
def store29 : State := (addGadget (clearStore (shaped 0x00040201 idle))).val

/-- T30. -/
theorem test_gswFromf : (run .gswFromf store29).map (fun t => (t.ringElem 2, t.ringElem 9, t.ringElem 8))
    = some (padded [0x10000000], padded [0x01000000], padded []) := by
  decide +kernel

/-- P2 before EXTPROD. -/
def p2 : State :=
  (store29.setRing 0 ((List.range 16).map (fun i => BitVec.ofNat 32 (0x12345678 * (i + 1))))).setRing 1
    ((List.range 16).map (fun i => BitVec.ofNat 32 (0x9ABCDEF0 + 0x01010101 * i)))

/-- P2: the accumulator's coefficients where the datapath rounds, the scratch, STATUS. -/
theorem test_extprod : (run .extprod p2).map
      (fun t => (t.ringCoef 0 3, t.ringCoef 1 5, t.ringCoef 18 6, t.ringCoef 19 15, t.statusWord))
    = some (0x48FFFFFF, 0xA0000001, 0xFFFFFFF8, 0x00000003, 0x00000082) := by
  decide +kernel

/-- The ring element of T14. -/
def ring14 : List Word := (List.range 16).map (fun i => BitVec.ofNat 32 (i * 0x10000000 + 0x123))

/-- T14 and T14b: the round trip is within 1 torus unit and not exact (41_frequency.md R103). -/
theorem test_roundTrip : RoundTripWithin 1 small 0 ring14 ∧ ¬ RoundTripWithin 0 small 0 ring14 := by decide +kernel

/-- P1: the product through the frequency domain is the negacyclic product, exactly (41_frequency.md R102). -/
theorem test_ringProduct :
    ProductWithin 0 small 16 16 16 (padded [1, 2, 0, 0, 0, 0, 0, 0, 0, 0, 0, 0, 0, 0, 0, 3]) (padded [0, 1])
      ∧ (List.range 3).map (negacyclic 16 (padded [1, 2, 0, 0, 0, 0, 0, 0, 0, 0, 0, 0, 0, 0, 0, 3]) (padded [0, 1]))
        = [-3, 1, 2] := by
  decide +kernel

/-! ### Issue checks (T33 to T42) -/

/-- The code a command word records on `idle` with CFG and SHIFT holding the given words; 0 where it succeeds. -/
def codeOf (cfg shift w : Word) : BitVec 8 :=
  errCodeBits (checkWord w { idle with cfg := cfgOfWord cfg, shift := shiftOfWord shift })

theorem test_check_encoding : ([0xFF000000, 0x09000000, 0x00000001, 0x01000100, 0x01220100] : List Word).map
    (codeOf 0x00080101 0x00202000) = [1, 1, 2, 2, 2] := by decide

theorem test_check_ids : ([0x06220000, 0x06210000, 0x08212121, 0x08212122, 0x03002200, 0x10210000] : List Word).map
    (codeOf 0x00080101 0x00202000) = [4, 0, 0, 4, 4, 0] ∧ codeOf 0x00080201 0x00202000 0x10210000 = 4 := by decide

theorem test_check_state : ([0x30000000, 0x21000000, 0x25000000, 0x20000000] : List Word).map
    (codeOf 0x00080101 0x00202000) = [5, 5, 5, 0] := by decide

theorem test_check_k0 : ([0x06000000, 0x00000000, 0x21000000, 0x20000000] : List Word).map
    (codeOf 0x00080100 0x00202000) = [3, 0, 5, 3] := by decide

theorem test_check_shift : ([0x00202020, 0x0020201F, 0x00203F00] : List Word).map
    (fun sh => codeOf 0x00080101 sh 0x06000000) = [3, 0, 0] := by decide

theorem test_check_cfg : ([0x00080501, 0x00070401, 0x00080401, 0x00000101, 0x00080102] : List Word).map
    (fun c => codeOf c 0x00202000 0x06000000) = [3, 0, 3, 3, 3] := by decide

/-- P3: GSW_CLEAR on a store of another shape. -/
theorem test_check_shape : checkWord 0x22000000 { shaped 0x00080101 idle with cfg := cfgOfWord 0x00080201 }
    = some .shape := by decide

/-! ### The host bus (T43 to T49) -/

theorem test_bus_registers : ([0x000, 0x004, 0x008, 0x00C, 0x010, 0x014] : List Word).map
      (fun a => answer (.read a) idle)
    = ([0x54484645, 0x00000001, 0x00040414, 0x00000808, 0x00080101, 0x00202000] : List Word).map
      (fun w => some { data := some w, error := false }) := by
  decide +kernel

theorem test_bus_errors : ([.read 0x030, .read 0x002, .read 0x00010020, .narrow false 0x000] : List Access).all
      (fun a => answer a idle == some { data := some 0, error := true }) = true
    ∧ ([.write 0x000 5, .write 0x00010000 1, .narrow true 0x010] : List Access).all
      (fun a => answer a idle == some { data := none, error := true }) = true := by
  decide +kernel

theorem test_bus_bus_err : (stepped (facing (.access (.write 0x000 5)) idle)).map (fun t => t.statusWord)
    = some 0x00000020 := by
  decide +kernel

theorem test_bus_roms : ([0x00020004, 0x00010018, 0x00030008, 0x0003000C] : List Word).map (fun a => answer (.read a) idle)
    = ([0x00000004, 0xD2BEC333, 0x3EC52FA0, 0x0C7C5C1E] : List Word).map
      (fun w => some { data := some w, error := false }) := by
  decide +kernel

/-- T46 and T46b. -/
theorem test_bus_freq :
    (stepped (facing (.access (.write 0x02000D00 0xFFFFFFFF)) (idle.setFreq 26 (List.replicate 8 ⟨0, 0⟩)))).map
      (fun t => t.freqEntry 26 0) = some ⟨4294967295, 0⟩
    ∧ (stepped (facing (.access (.write 0x02000D04 0xFFFFFFFF)) (idle.setFreq 26 (List.replicate 8 ⟨4294967295, 0⟩)))).map
      (fun t => t.freqEntry 26 0) = some ⟨-1, 0⟩ := by
  decide +kernel

/-- P5: the words of a negative component. -/
theorem test_bus_freq_read : ([0x02000D00, 0x02000D08, 0x02000D18, 0x02000D1C] : List Word).map
      (fun a => answer (.read a) (idle.setFreq 26 spectrum11))
    = ([0x000FB14C, 0x00031F17, 0xFFF71C62, 0xFFFFFFFF] : List Word).map
      (fun w => some { data := some w, error := false }) := by
  decide +kernel

/-- T47 and T47b. -/
theorem test_bus_status : (stepped (facing (.access (.write 0x024 0x00000006))
      { idle with done := true, err := true, errCode := some .state, ovf := true })).map (fun t => t.statusWord)
      = some 0x00000008
    ∧ (stepped (facing (.access (.write 0x024 0x00000001)) (flying 0x00000000 idle))).map (fun t => t.statusWord)
      = some 0x00000001 := by
  decide +kernel

/-- T48 and T48b. -/
theorem test_irq : (run .nop { idle with irqEn := irqEnOfWord 1 }).map (fun t => t.irq) = some true
    ∧ (run .extprod { idle with irqEn := irqEnOfWord 2 }).map (fun t => t.irq) = some true
    ∧ (run .nop { idle with irqEn := irqEnOfWord 2 }).map (fun t => t.irq) = some false := by
  decide +kernel

/-- T49 and T49b. -/
theorem test_bus_busy : (stepped (facing (.access (.write 0x020 0x01000000)) (flying 0x00000000 idle))).map
      (fun t => (t.statusWord, t.lastCmd)) = some (0x00000011, 0x00000000)
    ∧ (stepped (facing (.access (.write 0x010 0)) (flying 0x00000000 idle))).map
      (fun t => (t.statusWord, t.cfg.word)) = some (0x00000021, 0x00080101) := by
  decide +kernel

/-- A step on parameters of no instance is refused. -/
theorem test_no_such_instance : step (State.afterReset { Params.default with logn := 2 } 0) = .refused .noSuchInstance := by
  rfl

/-- The first step after reset runs a fetched word. -/
theorem test_fetch : (stepped (State.reset.withFetchWord 32 0x30000000)).map (fun t => t.errCode) = some (some .state)
    ∧ (stepped (State.reset.withFetchWord 32 0x20000000)).map (fun t => t.gswState) = some .alloc := by
  decide +kernel

/-! ### Witnesses: for every statement with hypotheses, a state and operands that meet them, for each of its clauses -/

/-- The idle instance with its store READY in CFG's shape. -/
def ready : State := shaped 0x00080101 idle

/-- The same with the store in ALLOC. -/
def allocated : State := { ready with gswState := .alloc }

/-- `ready` with K = K_MAX and ELL = ELL_MAX. -/
def widest : State := shaped 0x00070401 idle

theorem witness_EncodeOfDecode : decode 0x10211A00 = .command (.decomp 33 26) := by decide

theorem witness_StepRunsCommandInFlight :
    (flying 0x08212121 idle).params.legal = true ∧ (flying 0x08212121 idle).busy = true
      ∧ decode (flying 0x08212121 idle).curCmd = .command (.fmac 33 33 33) ∧ (flying 0x08212121 idle).agenda = []
      ∧ (facing .engine (flying 0x08212121 idle)).agenda = .engine :: [] := by decide

theorem witness_StepRunsFetchedWord : idle.params.legal = true ∧ decodeTableWord 32 0x30000000 = some .extprod := by decide

theorem witness_CmdWriteIssues :
    (facing (.access (.write 0x020 0x06210000)) (flying 0 idle)).busy = true
      ∧ (facing (.access (.write 0x020 0x06220000)) idle).busy = false ∧ idle.params.legal = true
      ∧ checkWord 0x06220000 (facing (.access (.write 0x020 0x06220000)) idle) = some .badId
      ∧ checkWord 0x06210000 (facing (.access (.write 0x020 0x06210000)) idle) = none := by decide

theorem witness_StepAlwaysAnswersNext : Params.default.legal = true ∧ ∃ t, step State.reset = .next t := ⟨by decide, _, rfl⟩

/-- Every code is reported by some word and state. -/
theorem witness_FirstCauseIsReported :
    checkWord 0x31000000 idle = some .illegalOpc ∧ checkWord 0x06000001 idle = some .rsvd
      ∧ checkWord 0x06000000 { idle with cfg := cfgOfWord 0 } = some .cfg ∧ checkWord 0x10210000 widest = some .badId
      ∧ checkWord 0x23000000 allocated = some .state
      ∧ checkWord 0x30000000 { ready with cfg := cfgOfWord 0x00070101 } = some .shape
      ∧ checkWord 0x30000000 ready = none := by decide

theorem witness_IllegalAndReservedWords :
    checkWord 0x09000000 idle = some .illegalOpc ∧ checkWord 0x00000001 idle = some .rsvd ∧ idle.err = false := by decide

theorem witness_CodesByCommand :
    check (.fclear 0) { idle with cfg := cfgOfWord 0 } = some .cfg ∧ check (.r2fT 33 34) idle = some .badId
      ∧ check .gswFree idle = some .state
      ∧ check .gswTof { allocated with cfg := cfgOfWord 0x00070101 } = some .shape := by decide

theorem witness_FailureIsPrecise : check .extprod idle = some .state := by decide

theorem witness_FirstErrorIsKept :
    checkWord 0x30000000 idle = some .state ∧ (∃ t, runWord 0x30000000 idle = .next t) ∧ idle.err = false
      ∧ checkWord 0x09000000 { idle with err := true, errCode := some .state } = some .illegalOpc
      ∧ (∃ t, runWord 0x09000000 { idle with err := true, errCode := some .state } = .next t)
      ∧ idle.params.legal = true ∧ BitVec.getLsbD (0x00000004 : Word) 2 = true
      ∧ checkWord 0x00000000 { idle with err := true, errCode := some .state } = none
      ∧ ∃ t, runWord 0x00000000 { idle with err := true, errCode := some .state } = .next t :=
  ⟨by decide, ⟨_, rfl⟩, rfl, by decide, ⟨_, rfl⟩, by decide, by decide, by decide, _, rfl⟩

/-- ELL * BGBIT = 31 and TSH = DW - 33, DSH = DW - 1 are legal. -/
theorem witness_CfgLegalConditions :
    ({ idle with cfg := cfgOfWord 0x001F0101, shift := shiftOfWord 0x00003F1F }).cfgLegal = true
      ∧ idle.params.legal = true := by decide

theorem witness_NopCompletes : opcField 0x00000100 = 0x00 ∧ (0x00000100 : Word) ≠ 0x00000000 := by decide

theorem witness_TransformCommandsComplete :
    idle.params.legal = true ∧ idle.cfgLegal = true ∧ BitVec.toNat (0x21 : FreqId) < idle.params.fspace := by decide

theorem witness_RingToFrequencyCompletes :
    idle.params.legal = true ∧ idle.cfgLegal = true ∧ BitVec.toNat (0x21 : FreqId) < idle.params.fspace
      ∧ BitVec.toNat (0x21 : RingId) < idle.params.rspace
      ∧ (Instr.r2fT 0x21 0x21 = .r2fT 0x21 0x21 ∧ 0 = idle.shift.tsh.toNat)
      ∧ (Instr.r2fI 0x21 0x21 = .r2fI 0x21 0x21 ∧ 32 = idle.shift.dsh.toNat) := by decide

theorem witness_FrequencyToRingCompletes :
    idle.params.legal = true ∧ idle.cfgLegal = true ∧ BitVec.toNat (0x21 : RingId) < idle.params.rspace
      ∧ BitVec.toNat (0x00 : FreqId) < idle.params.fspace := by decide

theorem witness_FclearCompletes :
    idle.params.legal = true ∧ idle.cfgLegal = true ∧ BitVec.toNat (0x21 : FreqId) < idle.params.fspace := by decide

theorem witness_FaddcCompletes :
    idle.params.legal = true ∧ idle.cfgLegal = true ∧ BitVec.toNat (0x00 : FreqId) < idle.params.fspace := by decide

/-- All three operands the same element. -/
theorem witness_FmacCompletes :
    idle.params.legal = true ∧ idle.cfgLegal = true ∧ BitVec.toNat (0x21 : FreqId) < idle.params.fspace := by decide

/-- The last run of four that fits, with the source inside it. -/
theorem witness_DecompCompletes :
    widest.params.legal = true ∧ widest.cfgLegal = true ∧ BitVec.toNat (0x1E : RingId) + widest.ell - 1 < widest.params.rspace
      ∧ BitVec.toNat (0x21 : RingId) < widest.params.rspace := by decide

theorem witness_GswAllocAndFreeComplete :
    idle.cfgLegal = true ∧ idle.gswState = .free ∧ allocated.gswState ≠ .free ∧ ready.gswState ≠ .free := by decide

theorem witness_GswClearCompletes :
    (widest.params.legal = true ∧ widest.cfgLegal = true ∧ widest.gswState ≠ .free ∧ widest.shape = widest.cfg)
      ∧ (allocated.params.legal = true ∧ allocated.cfgLegal = true ∧ allocated.gswState ≠ .free
        ∧ allocated.shape = allocated.cfg) := by decide

theorem witness_GswAddgCompletes :
    widest.params.legal = true ∧ widest.cfgLegal = true ∧ widest.gswState = .ready ∧ widest.shape = widest.cfg := by decide

theorem witness_GswTofCompletes :
    (widest.params.legal = true ∧ widest.cfgLegal = true ∧ widest.gswState ≠ .free ∧ widest.shape = widest.cfg)
      ∧ (allocated.params.legal = true ∧ allocated.cfgLegal = true ∧ allocated.gswState ≠ .free
        ∧ allocated.shape = allocated.cfg) := by decide

theorem witness_GswFromfCompletes :
    widest.params.legal = true ∧ widest.cfgLegal = true ∧ widest.gswState = .ready ∧ widest.shape = widest.cfg := by decide

theorem witness_ExtprodCompletes :
    widest.params.legal = true ∧ widest.cfgLegal = true ∧ widest.gswState = .ready ∧ widest.shape = widest.cfg := by decide

/-- A RING word and a FREQ word, its high half sign-extended, on an instance with DW = 40; the step is a FREQ write. -/
theorem witness_StepKeepsMemoryCanonical :
    let s : State := facing (.access (.write 0x02000004 0x12345601))
      { State.afterReset { small with dw := 40 } 0 with mem := [(0x01000004, 5), (0x02000004, 0xFFFFFF80)] }
    s.memOk ∧ ∃ t, step s = .next t ∧ t.mem ≠ s.mem := by
  refine ⟨by decide +kernel, _, rfl, by decide +kernel⟩

theorem witness_StepKeepsFlightProtocol :
    (facing .engine (flying 0x20000000 idle)).flightOk ∧ (∃ t, step (facing .engine (flying 0x20000000 idle)) = .next t)
      ∧ (facing (.access (.write 0x020 0x20000000)) idle).flightOk
      ∧ ∃ t, step (facing (.access (.write 0x020 0x20000000)) idle) = .next t :=
  ⟨by decide, ⟨_, rfl⟩, by decide, _, rfl⟩

theorem witness_StepKeepsErrorRecord :
    (facing (.access (.write 0x024 4)) { idle with err := true, errCode := some .cfg }).errorOk
      ∧ ∃ t, step (facing (.access (.write 0x024 4)) { idle with err := true, errCode := some .cfg }) = .next t :=
  ⟨by decide, _, rfl⟩

theorem witness_StepKeepsStoreShape :
    (flying 0x20000000 idle).storeOk ∧ (∃ t, step (flying 0x20000000 idle) = .next t)
      ∧ (flying 0x21000000 ready).storeOk ∧ ∃ t, step (flying 0x21000000 ready) = .next t :=
  ⟨by decide, ⟨_, rfl⟩, by decide, _, rfl⟩

/-- Each kind of change of GSW_STATE happens. -/
theorem witness_GswStateTransitions :
    (∃ t, step (flying 0x20000000 idle) = .next t ∧ t.gswState ≠ idle.gswState)
      ∧ (∃ t, step (flying 0x21000000 ready) = .next t ∧ t.gswState ≠ ready.gswState)
      ∧ (∃ t, step (flying 0x22000000 allocated) = .next t ∧ t.gswState ≠ allocated.gswState)
      ∧ (∃ t, step (flying 0x24000000 allocated) = .next t ∧ t.gswState ≠ allocated.gswState)
      ∧ ∃ t, step (facing .reset ready) = .next t ∧ t.gswState ≠ ready.gswState :=
  ⟨⟨_, rfl, by decide⟩, ⟨_, rfl, by decide⟩, ⟨_, rfl, by decide⟩, ⟨_, rfl, by decide⟩, _, rfl, by decide⟩

/-- The first and last RING and FREQ words, and the three registers. -/
theorem witness_BusyAccessesAreRefused :
    (flying 0 idle).params.legal = true ∧ (flying 0 idle).busy = true
      ∧ ([0x01000000, 0x0100087C, 0x02000000, 0x020010FC] : List Word).all
        (fun a => small.isRing a.toNat || small.isFreq a.toNat) = true
      ∧ (facing (.access (.read 0x01000000)) (flying 0 idle)).agenda = .access (.read 0x01000000) :: []
      ∧ (facing (.access (.write 0x010 0)) (flying 0 idle)).agenda = .access (.write 0x010 0) :: [] := by decide

/-- A read with a value and one without. -/
theorem witness_ReadsHaveNoSideEffect :
    idle.params.legal = true ∧ (facing (.access (.read 0x02C)) idle).agenda = .access (.read 0x02C) :: []
      ∧ readValue (0x02C : Word).toNat (facing (.access (.read 0x02C)) idle) = some 0
      ∧ readValue (0x030 : Word).toNat (facing (.access (.read 0x030)) idle) = none := by decide

/-- The last coefficient of the last element. -/
theorem witness_RingWordsReadAndWrite :
    idle.params.legal = true ∧ idle.memOk ∧ 33 < idle.params.rspace ∧ 15 < idle.params.n ∧ idle.busy = false
      ∧ (flying 0 idle).busy = true
      ∧ (facing (.access (.read 0x0100087C)) idle).agenda
        = .access (.read (BitVec.ofNat 32 (0x01000000 + 4 * (33 * idle.params.n + 15)))) :: []
      ∧ (facing (.access (.write 0x0100087C 1)) idle).agenda
        = .access (.write (BitVec.ofNat 32 (0x01000000 + 4 * (33 * idle.params.n + 15))) 1) :: [] := by decide

/-- The last word of the last entry of the last element. -/
theorem witness_FreqWordsReadAndWrite :
    idle.params.legal = true ∧ idle.memOk ∧ 33 < idle.params.fspace ∧ 7 < idle.params.l ∧ idle.busy = false
      ∧ (flying 0 idle).busy = true
      ∧ (facing (.access (.read 0x020010FC)) idle).agenda
        = .access (.read (BitVec.ofNat 32 (0x02000000 + 16 * (33 * idle.params.l + 7) + 4 * 3))) :: []
      ∧ (facing (.access (.write 0x020010FC 1)) idle).agenda
        = .access (.write (BitVec.ofNat 32 (0x02000000 + 16 * (33 * idle.params.l + 7) + 4 * 3)) 1) :: [] := by decide

/-- The borders of the reserved offsets and of the space between the regions. -/
theorem witness_BadAccessesGetBusErrors :
    idle.params.legal = true ∧ (0x002 : Word).toNat % 4 ≠ 0
      ∧ (0x030 ≤ (0x030 : Word).toNat ∧ (0xFFC : Word).toNat < 0x1000)
      ∧ (0x00010000 + 4 * idle.params.twromWords = 0x00010020 ∧ 0x00020000 + 4 * idle.params.l = 0x00020020
        ∧ 0x00030000 + 8 * idle.params.l = 0x00030040
        ∧ 0x01000000 + 4 * (idle.params.rspace * idle.params.n) = 0x01000880
        ∧ 0x02000000 + 16 * (idle.params.fspace * idle.params.l) = 0x02001100)
      ∧ ([0x00001000, 0x00010020, 0x00020020, 0x00030040, 0x01000880, 0x02001100] : List Word).all
        (fun a => target small a.toNat == .unmapped) = true := by decide

/-- The last word of each ROM. -/
theorem witness_RomsAreReadOnly :
    idle.params.legal = true ∧ (7 < idle.params.twromWords ∧ (0x0001001C : Word).toNat = 0x00010000 + 4 * 7)
      ∧ (7 < idle.params.l ∧ (0x0002001C : Word).toNat = 0x00020000 + 4 * 7)
      ∧ (0x0003003C : Word).toNat = 0x00030000 + 8 * 7 + 4 := by decide

theorem witness_StatusWriteClearsBits :
    (flying 0 idle).params.legal = true
      ∧ (facing (.access (.write 0x024 0xFFFFFFFF)) (flying 0 idle)).agenda = .access (.write 0x024 0xFFFFFFFF) :: [] := by
  decide

theorem witness_RegistersReadBackMasked :
    ([0x010, 0x014, 0x018, 0x028] : List Word).all (fun a =>
      ({ idle with agenda := [.access (.write a 0xFFFFFFFF), .access (.read a)] }).agenda
        == [.access (.write a 0xFFFFFFFF), .access (.read a)]) = true
      ∧ idle.params.legal = true ∧ idle.busy = false ∧ (flying 0 idle).params.legal = true := by decide

theorem witness_ConstantRegisters : idle.params.legal = true ∧ State.reset.params.legal = true := by decide

theorem witness_InterruptOutput :
    ({ idle with const := 7 }).statusWord = idle.statusWord ∧ ({ idle with const := 7 }).irqEn.word = idle.irqEn.word := by
  decide

/-- A reset during a command. -/
theorem witness_ResetSetsEveryRegister :
    (facing .reset (flying 0x30000000 ready)).params.legal = true
      ∧ (facing .reset (flying 0x30000000 ready)).agenda = .reset :: [] := by decide

theorem witness_AccessWhileBusyKeepsResult :
    (flying 0x20000000 idle).busy = true ∧ (∃ t, hostAccess (.write 0x024 0x3E) (flying 0x20000000 idle) = .next t)
      ∧ ∃ t, engineMove (flying 0x20000000 idle) = .next t := ⟨rfl, ⟨_, rfl⟩, _, rfl⟩

/-- One step under each clause: a reset, a completion, an access, an idle engine, a command in flight that fails. -/
theorem witness_CommandCountCountsSuccesses :
    (∃ t, step (facing .reset ready) = .next t) ∧ (∃ t, step (flying 0 idle) = .next t)
      ∧ (flying 0 idle).busy = true ∧ checkWord (flying 0 idle).curCmd (flying 0 idle) = none
      ∧ (∃ t, step (facing (.access (.write 0x020 0)) idle) = .next t) ∧ (∃ t, step idle = .next t) ∧ idle.busy = false
      ∧ (∃ t, step (flying 0x30000000 idle) = .next t)
      ∧ checkWord (flying 0x30000000 idle).curCmd (flying 0x30000000 idle) ≠ none :=
  ⟨⟨_, rfl⟩, ⟨_, rfl⟩, rfl, by decide, ⟨_, rfl⟩, ⟨_, rfl⟩, rfl, ⟨_, rfl⟩, by decide⟩

theorem witness_RndRoundsToNearest : 1 ≤ 1 ∧ 1 ≤ 127 := by decide

theorem witness_FitWrapsAndFlags : 1 ≤ 33 ∧ 1 ≤ 64 := by decide

/-- The shortest and the longest transform. -/
theorem witness_BitReversalTable :
    tiny.legal = true ∧ 3 < tiny.l ∧ ({ tiny with logn := 13 }).legal = true ∧ 4095 < ({ tiny with logn := 13 }).l := by decide

/-- The first entry of the shortest stage and the last entry of the longest. -/
theorem witness_TwiddlesAreRoundedCosines :
    (small.legal = true ∧ 3 ≤ 3 ∧ 2 ^ 3 ≤ small.l ∧ 0 < 2 ^ 3 / 2)
      ∧ (({ small with logn := 13 }).legal = true ∧ 3 ≤ 12 ∧ 2 ^ 12 ≤ ({ small with logn := 13 }).l ∧ 2047 < 2 ^ 12 / 2) := by
  decide

theorem witness_TwistsAreRoundedCosines :
    tiny.legal = true ∧ 0 < tiny.l ∧ ({ small with logn := 13 }).legal = true ∧ 4095 < ({ small with logn := 13 }).l := by
  decide

/-- The butterflies of the last stage, in reverse order. -/
theorem witness_ButterflyOrderIsIrrelevant :
    small.legal = true ∧ spectrum11.length = small.l ∧ 8 ∈ stageSizes small
      ∧ (butterflies small.l 8).reverse.Perm (butterflies small.l 8)
      ∧ (butterflies small.l 8).reverse ≠ butterflies small.l 8 :=
  ⟨by decide, by decide, by decide, List.reverse_perm _, by decide⟩

theorem witness_TransformStaysInRange :
    tiny.legal = true ∧ ∀ z ∈ ([⟨-(2 ^ 63), 2 ^ 63 - 1⟩, ⟨0, 0⟩, ⟨1, 1⟩, ⟨-1, 2⟩] : List Cplx),
      inRange tiny.dw z.re = true ∧ inRange tiny.dw z.im = true := by decide +kernel

theorem witness_TorusFoldNeverOverflows :
    small.legal = true ∧ 31 ≤ small.dw - 33 ∧ ({ small with dw := 33 }).legal = true ∧ 0 ≤ 33 - 33 := by decide

theorem witness_ZeroPolynomialIsExact :
    idle.params.legal = true ∧ idle.cfgLegal = true ∧ BitVec.toNat (0x21 : FreqId) < idle.params.fspace
      ∧ BitVec.toNat (0x21 : RingId) < idle.params.rspace := by decide

/-- The constant -2^31. -/
theorem witness_ConstantPolynomialSpectrum :
    let s : State := idle.setRing 26 (padded [0x80000000])
    s.params.legal = true ∧ s.cfgLegal = true ∧ BitVec.toNat (0x21 : FreqId) < s.params.fspace
      ∧ BitVec.toNat (0x1A : RingId) < s.params.rspace ∧ ∀ c < s.params.n, 1 ≤ c → s.ringCoef 26 c = 0 := by
  decide +kernel

/-- The longest digit, the most digits, the shortest. -/
theorem witness_DigitsRecombine :
    (1 ≤ 1 ∧ 1 ≤ 31 ∧ 1 * 31 ≤ 31) ∧ (1 ≤ 15 ∧ 1 ≤ 2 ∧ 15 * 2 ≤ 31) ∧ (1 ≤ 1 ∧ 1 ≤ 1 ∧ 1 * 1 ≤ 31) := by decide

/-- The store just cleared. -/
theorem witness_ZeroSampleGivesZero :
    let s : State := clearStore ready
    s.params.legal = true ∧ s.cfgLegal = true ∧ s.gswState = .ready ∧ s.shape = s.cfg
      ∧ ∀ row < s.kpl, ∀ slot < s.k + 1, ∀ j < s.params.l, s.freqEntry (s.params.gswf row slot) j = ⟨0, 0⟩ := by
  decide +kernel

/-- The first and the last stage, the narrowest width, the smallest and the largest table stage. -/
theorem witness_RotationsAndStages :
    small.legal = true ∧ spectrum11.length = small.l ∧ (1 ≤ 1 ∧ 2 ^ 1 ≤ small.l) ∧ (1 ≤ 3 ∧ 2 ^ 3 ≤ small.l)
      ∧ 8 ≤ 8 ∧ (3 ≤ 3 ∧ 3 ≤ 12) ∧ (3 ≤ 12 ∧ 12 ≤ 12) ∧ inRange 1 (-1) = true ∧ inRange 1 0 = true := by decide

theorem witness_ConversionsTwistAndUntwist : small.legal = true ∧ 0 < small.l := by decide

end Sys2Proof.Tests
end

section
/-! PROOFS. `rnd` as a floor, as an arithmetic right shift and by its error (00_scope.md R14). -/

namespace Sys2Proof.Machine

/-- Rounding by no bits keeps the value. -/
@[simp] theorem rnd_zero_bits (v : Int) : rnd v 0 = v := rfl

/-- Rounding by at least one bit is a division after adding half a unit. -/
theorem rnd_succ_bits (v : Int) (n : Nat) : rnd v (n + 1) = (v + 2 ^ n) / 2 ^ (n + 1) := by
  rw [rnd, pow2_eq, pow2_eq]

/-- The model's integer division is the floor of the rational quotient. -/
theorem rnd_succ_bits_eq_floor (v : Int) (n : Nat) :
    rnd v (n + 1) = ⌊((v : ℚ) + 2 ^ n) / 2 ^ (n + 1)⌋ := by
  have floor_eq := Rat.floor_intCast_div_natCast (v + 2 ^ n) (2 ^ (n + 1))
  push_cast at floor_eq
  rw [rnd_succ_bits, floor_eq]

/-- Dividing by the power of two is the arithmetic right shift of R14. -/
theorem rnd_succ_bits_eq_shiftRight (v : Int) (n : Nat) : rnd v (n + 1) = (v + 2 ^ n) >>> (n + 1) := by
  rw [rnd_succ_bits, Int.shiftRight_eq_div_pow, Nat.cast_pow, Nat.cast_ofNat]

/-- The error is the division's remainder less half a unit. -/
theorem sub_mul_rnd_succ_bits (v : Int) (n : Nat) :
    v - 2 ^ (n + 1) * rnd v (n + 1) = (v + 2 ^ n) % 2 ^ (n + 1) - 2 ^ n := by
  rw [rnd_succ_bits, Int.emod_def]; ring

/-- The error lies in the half-open unit around zero: in a tie the value lies below the result, so a tie goes up. -/
theorem rnd_succ_bits_error (v : Int) (n : Nat) :
    -(2 ^ n) ≤ v - 2 ^ (n + 1) * rnd v (n + 1) ∧ v - 2 ^ (n + 1) * rnd v (n + 1) < 2 ^ n := by
  have unit_pos : (0 : Int) < 2 ^ (n + 1) := by positivity
  have rem_nonneg := Int.emod_nonneg (v + 2 ^ n) unit_pos.ne'
  have rem_lt := Int.emod_lt_of_pos (v + 2 ^ n) unit_pos
  have unit_eq : (2 : Int) ^ (n + 1) = 2 * 2 ^ n := pow_succ' 2 n
  rw [sub_mul_rnd_succ_bits]
  constructor <;> linarith

/-- Settles O47: each clause is a lemma about rounding by `n + 1` bits; the four examples evaluate. -/
theorem rndRoundsToNearest : Obligations.RndRoundsToNearest := by
  refine ⟨fun v => ⟨rnd_zero_bits v, fun n hn => ?_⟩, by decide⟩
  obtain ⟨m, rfl⟩ := Nat.exists_eq_add_of_le' hn
  exact ⟨rnd_succ_bits_eq_floor v m, rnd_succ_bits_eq_shiftRight v m, rnd_succ_bits_error v m⟩

end Sys2Proof.Machine
end

section
/-! PROOFS. Fields of register words (10_state.md R35 to R38, R41, R43, R45). -/

namespace Sys2Proof

/-- The ranges of the synthesis parameters (00_scope.md R7, R9). -/
theorem Params.legal_iff (p : Params) : p.legal = true ↔
    (3 ≤ p.logn ∧ p.logn ≤ 13) ∧ (1 ≤ p.kMax ∧ p.kMax ≤ 15) ∧ (1 ≤ p.ellMax ∧ p.ellMax ≤ 15)
      ∧ (1 ≤ p.ngr ∧ p.ngr ≤ 255) ∧ (1 ≤ p.ngf ∧ p.ngf ≤ 255) ∧ (33 ≤ p.dw ∧ p.dw ≤ 64)
      ∧ p.rspace ≤ 256 ∧ p.fspace ≤ 256 := by
  simp [Params.legal, and_assoc]

end Sys2Proof

namespace Sys2Proof.Machine

/-- A field of a word that is given as a number. -/
theorem toNat_extractLsb'_ofNat (x start len : Nat) :
    ((BitVec.ofNat 32 x).extractLsb' start len).toNat = x % 2 ^ 32 / 2 ^ start % 2 ^ len := by
  rw [BitVec.extractLsb'_toNat, BitVec.toNat_ofNat, Nat.shiftRight_eq_div_pow]

/-- The word with one field at bit 16, one at bit 8 and one at bit 0, and 0 in every other bit: the layout of CFG,
GSW_SHAPE and SHIFT. -/
def threeFields {l m n : Nat} (c : BitVec l) (b : BitVec m) (a : BitVec n) : Word :=
  BitVec.ofNat 32 (c.toNat * 2 ^ 16 + b.toNat * 2 ^ 8 + a.toNat)

theorem Cfg.word_eq_threeFields (c : Cfg) : c.word = threeFields c.bgbit c.ell c.k := rfl

theorem Shift.word_eq_threeFields (c : Shift) : c.word = threeFields c.psh c.dsh c.tsh := rfl

theorem Cfg.word_zero : ({ k := 0, ell := 0, bgbit := 0 } : Cfg).word = 0 := by decide

/-- The fields of a Cfg stand in its word at the places of R37. -/
theorem Cfg.fields_word (c : Cfg) : c.word.extractLsb' 0 4 = c.k ∧ c.word.extractLsb' 8 4 = c.ell
    ∧ c.word.extractLsb' 16 5 = c.bgbit := by
  have hk := c.k.isLt
  have hell := c.ell.isLt
  have hbgbit := c.bgbit.isLt
  refine ⟨?_, ?_, ?_⟩ <;> apply BitVec.eq_of_toNat_eq <;> rw [Cfg.word, toNat_extractLsb'_ofNat] <;> omega

/-- A vector has no bit beyond its width. -/
theorem getLsbD_and_not_lt {k : Nat} (x : BitVec k) (i : Nat) : (x.getLsbD i && !decide (i < k)) = false := by
  by_cases hi : i < k
  · simp [hi]
  · simp [BitVec.getLsbD_of_ge x i (not_lt.mp hi)]

section
variable {l m n : Nat} (hm : m ≤ 8) (hn : n ≤ 8)
include hm hn

theorem getLsbD_threeFields (c : BitVec l) (b : BitVec m) (a : BitVec n) (i : Nat) :
    (threeFields c b a).getLsbD i = (decide (i < 32) &&
      if i < 8 then a.getLsbD i else if i < 16 then b.getLsbD (i - 8) else c.getLsbD (i - 16)) := by
  have a_lt : a.toNat < 2 ^ 8 := a.isLt.trans_le (Nat.pow_le_pow_right (by decide) hn)
  have b_lt : b.toNat < 2 ^ 8 := b.isLt.trans_le (Nat.pow_le_pow_right (by decide) hm)
  have nested : c.toNat * 2 ^ 16 + b.toNat * 2 ^ 8 + a.toNat = 2 ^ 8 * (2 ^ 8 * c.toNat + b.toNat) + a.toNat := by ring
  rw [threeFields, nested, BitVec.getLsbD_ofNat, Nat.testBit_two_pow_mul_add _ a_lt, Nat.testBit_two_pow_mul_add _ b_lt]
  simp only [BitVec.testBit_toNat, Nat.sub_sub, Nat.reduceAdd, show i - 8 < 8 ↔ i < 16 by omega]

/-- The fields read from a word, put back at their places, are the word with its other bits 0. -/
theorem threeFields_extractLsb' (w : Word) :
    threeFields (w.extractLsb' 16 l) (w.extractLsb' 8 m) (w.extractLsb' 0 n)
      = w &&& threeFields (BitVec.allOnes l) (BitVec.allOnes m) (BitVec.allOnes n) := by
  apply BitVec.eq_of_getLsbD_eq
  intro i hi
  simp only [BitVec.getLsbD_and, getLsbD_threeFields hm hn, BitVec.getLsbD_extractLsb', BitVec.getLsbD_allOnes,
    hi, decide_true, Bool.true_and]
  split
  · rw [Nat.zero_add, Bool.and_comm]
  · split
    · rw [Nat.add_sub_cancel' (by omega), Bool.and_comm]
    · rw [Nat.add_sub_cancel' (by omega), Bool.and_comm]

/-- Outside its fields the word is 0. -/
theorem threeFields_and_not_mask (c : BitVec l) (b : BitVec m) (a : BitVec n) :
    threeFields c b a &&& ~~~threeFields (BitVec.allOnes l) (BitVec.allOnes m) (BitVec.allOnes n) = 0 := by
  apply BitVec.eq_of_getLsbD_eq
  intro i hi
  simp only [BitVec.getLsbD_and, BitVec.getLsbD_not, getLsbD_threeFields hm hn, BitVec.getLsbD_allOnes, hi,
    decide_true, Bool.true_and, BitVec.ofNat_eq_ofNat, BitVec.getLsbD_zero]
  split
  · exact getLsbD_and_not_lt a i
  · split
    · exact getLsbD_and_not_lt b (i - 8)
    · exact getLsbD_and_not_lt c (i - 16)

end

/-- CFG reads back what was written, its reserved bits as 0 (R37, R45). -/
theorem word_cfgOfWord (w : Word) : (cfgOfWord w).word = w &&& 0x001F0F0F :=
  (Cfg.word_eq_threeFields _).trans (threeFields_extractLsb' (by decide) (by decide) w)

/-- SHIFT reads back what was written, its reserved bits as 0 (R38, R45). -/
theorem word_shiftOfWord (w : Word) : (shiftOfWord w).word = w &&& 0x007F3F3F :=
  (Shift.word_eq_threeFields _).trans (threeFields_extractLsb' (by decide) (by decide) w)

/-- IRQ_EN reads back what was written, its reserved bits as 0 (R43, R45). -/
theorem word_irqEnOfWord (w : Word) : (irqEnOfWord w).word = w &&& 0x00000003 := by
  have masked : (w &&& 0x00000003).toNat = w.toNat % 4 := Nat.and_two_pow_sub_one_eq_mod w.toNat 2
  apply BitVec.eq_of_toNat_eq
  rw [masked, IrqEn.word, irqEnOfWord, BitVec.toNat_ofNat, BitVec.getLsbD, BitVec.getLsbD, Nat.toNat_testBit,
    Nat.toNat_testBit]
  omega

theorem Cfg.word_and_reserved (c : Cfg) : c.word &&& ~~~0x001F0F0F = 0 := by
  rw [Cfg.word_eq_threeFields]
  exact threeFields_and_not_mask (by decide) (by decide) c.bgbit c.ell c.k

theorem Shift.word_and_reserved (c : Shift) : c.word &&& ~~~0x007F3F3F = 0 := by
  rw [Shift.word_eq_threeFields]
  exact threeFields_and_not_mask (by decide) (by decide) c.psh c.dsh c.tsh

theorem IrqEn.word_and_reserved (c : IrqEn) : c.word &&& ~~~0x00000003 = 0 := by
  obtain ⟨doneIe, errIe⟩ := c
  cases doneIe <;> cases errIe <;> decide

/-- STATUS has no bit above ERRCODE (R42). -/
theorem getLsbD_statusWord_of_le (s : State) {i : Nat} (hi : 16 ≤ i) : s.statusWord.getLsbD i = false := by
  simp (disch := omega) only [State.statusWord, BitVec.getLsbD_setWidth, BitVec.getLsbD_append, if_neg,
    BitVec.getLsbD_zero, Bool.and_false]

theorem statusWord_and_reserved (s : State) : s.statusWord &&& 0xFFFF0000 = 0 := by
  have mask : (0xFFFF0000 : Word) = BitVec.allOnes 16 ++ 0#16 := by decide
  apply BitVec.eq_of_getLsbD_eq
  intro i hi
  rw [mask, BitVec.getLsbD_and, BitVec.getLsbD_append]
  by_cases low : i < 16
  · simp [low]
  · simp [getLsbD_statusWord_of_le s (not_lt.mp low)]

end Sys2Proof.Machine
end

section
/-! PROOFS. The address map and one host access (20_memory.md R49, R54, R66; 10_state.md R32, R46). -/

namespace Sys2Proof.Machine

/-! ### The address map -/

/-- Every register lies at an aligned offset below 0x030. -/
theorem regAt_bounds {a : Nat} {r : Reg} (h : regAt a = some r) : a % 4 = 0 ∧ a < 0x030 := by
  unfold regAt at h
  split at h <;> simp_all

theorem within_iff (base count a : Nat) : within base count a = true ↔ base ≤ a ∧ a < base + count := by
  simp [within]

theorem isRing_iff (p : Params) (a : Nat) : p.isRing a = true ↔
    a % 4 = 0 ∧ 0x01000000 ≤ a ∧ a < 0x01000000 + 4 * (p.rspace * p.n) := by
  simp [Params.isRing, ringBase, and_assoc]

theorem isFreq_iff (p : Params) (a : Nat) : p.isFreq a = true ↔
    a % 4 = 0 ∧ 0x02000000 ≤ a ∧ a < 0x02000000 + 16 * (p.fspace * p.l) := by
  simp [Params.isFreq, freqBase, and_assoc]

/-- An offset of the register block names its register. -/
theorem target_of_regAt (p : Params) {a : Nat} {r : Reg} (h : regAt a = some r) : target p a = .reg r := by
  obtain ⟨aligned, below⟩ := regAt_bounds h
  have block : within 0x00000000 0x1000 a = true := (within_iff _ _ _).2 ⟨Nat.zero_le a, by omega⟩
  simp [target, aligned, block, h]

theorem target_of_unaligned (p : Params) {a : Nat} (h : a % 4 ≠ 0) : target p a = .unmapped := by
  simp [target, h]

/-- A reserved offset of the register block names nothing. -/
theorem target_of_reserved (p : Params) {a : Nat} (lo : 0x030 ≤ a) (hi : a < 0x1000) : target p a = .unmapped := by
  have block : within 0x00000000 0x1000 a = true := (within_iff _ _ _).2 ⟨Nat.zero_le a, by omega⟩
  have noReg : regAt a = none := Option.eq_none_iff_forall_ne_some.2 fun r hr => by
    obtain ⟨-, below⟩ := regAt_bounds hr
    omega
  simp [target, block, noReg]

/-- The offset lies in no region of the address map (20_memory.md R49). -/
def OutsideRegions (p : Params) (a : Nat) : Prop :=
  0x1000 ≤ a
    ∧ ¬ (0x00010000 ≤ a ∧ a < 0x00010000 + 4 * p.twromWords)
    ∧ ¬ (0x00020000 ≤ a ∧ a < 0x00020000 + 4 * p.l)
    ∧ ¬ (0x00030000 ≤ a ∧ a < 0x00030000 + 8 * p.l)
    ∧ ¬ (0x01000000 ≤ a ∧ a < 0x01000000 + 4 * (p.rspace * p.n))
    ∧ ¬ (0x02000000 ≤ a ∧ a < 0x02000000 + 16 * (p.fspace * p.l))

theorem target_of_outside {p : Params} {a : Nat} (h : OutsideRegions p a) : target p a = .unmapped := by
  obtain ⟨block, twrom, brrom, twist, ring, freq⟩ := h
  have noRing : ¬ p.isRing a = true := fun hr => ring ((isRing_iff p a).1 hr).2
  have noFreq : ¬ p.isFreq a = true := fun hf => freq ((isFreq_iff p a).1 hf).2
  have notBlock : ¬ a < 0x1000 := by omega
  simp [target, within_iff, notBlock, twrom, brrom, twist, noRing, noFreq]

/-! ### One access -/

/-- With a host access at the head of the agenda the step is that access. -/
theorem step_access {s : State} {a : Access} {rest : List Event} (legal : s.params.legal = true)
    (next : s.agenda = .access a :: rest) : step s = hostAccess a (setAgenda rest s) := by
  simp [step, nextMove, legal, next, handle]

/-- A read of a register returns its word. -/
theorem readValue_of_regAt {a : Nat} {r : Reg} (h : regAt a = some r) (s : State) :
    readValue a s = some (readReg r s) := by
  simp [readValue, target_of_regAt s.params h]

/-- A write at the offset of a register is the write to that register. -/
theorem busWrite_of_regAt {a : Nat} {r : Reg} (h : regAt a = some r) (w : Word) (s : State) :
    busWrite a w s = writeReg r w s := by
  simp [busWrite, target_of_regAt s.params h]

/-- A read of an offset that names nothing gets a bus error. -/
theorem busRead_of_unmapped {a : Nat} {s : State} (h : target s.params a = .unmapped) :
    busRead a s = busError false s := by
  simp [busRead, readValue, h]

/-- A write to an offset that names nothing gets a bus error. -/
theorem busWrite_of_unmapped {a : Nat} {s : State} (h : target s.params a = .unmapped) (w : Word) :
    busWrite a w s = .next (busError true s) := by
  simp [busWrite, h]

/-- A write to a read-only register gets a bus error (10_state.md R46). -/
theorem busWrite_of_readOnly {a : Nat} (h : a ∈ [0x000, 0x004, 0x008, 0x00C, 0x01C, 0x02C]) (w : Word) (s : State) :
    busWrite a w s = .next (busError true s) := by
  have readOnly : ∃ r, regAt a = some r ∧ writeReg r w s = .next (busError true s) := by
    simp only [List.mem_cons, List.not_mem_nil, or_false] at h
    obtain rfl | rfl | rfl | rfl | rfl | rfl := h <;> exact ⟨_, rfl, rfl⟩
  obtain ⟨r, atOffset, refused⟩ := readOnly
  rw [busWrite_of_regAt atOffset, refused]

theorem writeReg_cfg_of_idle {s : State} (w : Word) (idle : s.busy = false) :
    writeReg .cfg w s = .next (respond none (setCfg (cfgOfWord w) s)) := by
  simp [writeReg, idle]

theorem writeReg_shift_of_idle {s : State} (w : Word) (idle : s.busy = false) :
    writeReg .shift w s = .next (respond none (setShift (shiftOfWord w) s)) := by
  simp [writeReg, idle]

theorem writeReg_const_of_idle {s : State} (w : Word) (idle : s.busy = false) :
    writeReg .const w s = .next (respond none (setConst w s)) := by
  simp [writeReg, idle]

/-- A write to a register that leaves `t`, then a read of the same offset: the read returns what `t` holds there,
and what holds of `t` holds in between. -/
theorem step_write_then_read {s t : State} {a w v : Word} {r : Reg} {rest : List Event} {stored : State → Prop}
    (legal : s.params.legal = true) (next : s.agenda = .access (.write a w) :: .access (.read a) :: rest)
    (atOffset : regAt a.toNat = some r)
    (written : writeReg r w (setAgenda (.access (.read a) :: rest) s) = .next t)
    (params : t.params = s.params) (agenda : t.agenda = .access (.read a) :: rest)
    (value : readReg r (setAgenda rest t) = v) (holds : stored t) :
    ∃ t' u, step s = .next t' ∧ step t' = .next u ∧ u.resp = some { data := some v, error := false }
      ∧ stored t' := by
  have stepWrite : step s = .next t := by
    rw [step_access legal next, hostAccess, busWrite_of_regAt atOffset, written]
  have stepRead : step t = .next (respond (some v) (setAgenda rest t)) := by
    rw [step_access (params ▸ legal) agenda, hostAccess, busRead, readValue_of_regAt atOffset, value]
  exact ⟨t, _, stepWrite, stepRead, rfl, holds⟩

end Sys2Proof.Machine
end

section
/-! PROOFS. What every completed command leaves unchanged (60_exceptions.md R132). -/

namespace Sys2Proof.Machine

/-- A command that passes its checks completes with its effect. -/
theorem exec_of_check_eq_none {i : Instr} {s : State} (h : check i s = none) :
    exec i s = .next (finish (effect i s)) := by
  rw [exec_eq_conclude, h, conclude_none]

/-- The completion of any command has the common frame. -/
theorem completed_finish_effect (i : Instr) (s : State) : Completed s (finish (effect i s)) := by
  obtain ⟨m, g, c, touched⟩ := effect_touches i s
  constructor <;> simp +contextual [touched]

/-- A state with the same memory reads the same words. -/
theorem sameMemoryBut_of_mem_eq {s t : State} (mem : t.mem = s.mem) (params : t.params = s.params)
    (epoch : t.epoch = s.epoch) (rings freqs : List Nat) : SameMemoryBut rings freqs s t := by
  intro a _ _
  rw [State.word, State.word, State.wordIn, State.wordIn, mem, params, epoch]

theorem check_gswAlloc {s : State} (cfgLegal : s.cfgLegal = true) (free : s.gswState = .free) :
    check .gswAlloc s = none := by
  rw [check_eq_none]
  exact ⟨fun _ => cfgLegal, rfl, by rw [free]; rfl, nofun⟩

theorem check_gswFree {s : State} (constructed : s.gswState ≠ .free) : check .gswFree s = none := by
  rw [check_eq_none]
  refine ⟨nofun, rfl, ?_, nofun⟩
  cases h : s.gswState with
  | free => exact absurd h constructed
  | alloc => rfl
  | ready => rfl

end Sys2Proof.Machine
end

section
/-! PROOFS. The statements of 10_state.md on registers and of 42_gsw.md on GSW_ALLOC and GSW_FREE. -/

namespace Sys2Proof.Machine

/-- PARAM0 holds the parameters of a legal configuration in its fields (10_state.md R35). -/
theorem param0Word_fields {p : Params} (legal : p.legal = true) :
    ((param0Word p).extractLsb' 0 4).toNat = p.logn ∧ ((param0Word p).extractLsb' 4 4).toNat = p.kMax
      ∧ ((param0Word p).extractLsb' 8 4).toNat = p.ellMax ∧ ((param0Word p).extractLsb' 12 7).toNat = p.dw
      ∧ (param0Word p).extractLsb' 19 13 = 0 := by
  obtain ⟨logn, kMax, ellMax, -, -, dw, -, -⟩ := p.legal_iff.1 legal
  simp only [← BitVec.toNat_inj, param0Word, toNat_extractLsb'_ofNat, BitVec.ofNat_eq_ofNat, BitVec.toNat_ofNat]
  refine ⟨?_, ?_, ?_, ?_, ?_⟩ <;> omega

/-- PARAM1 holds NGR and NGF of a legal configuration in its fields (10_state.md R36). -/
theorem param1Word_fields {p : Params} (legal : p.legal = true) :
    ((param1Word p).extractLsb' 0 8).toNat = p.ngr ∧ ((param1Word p).extractLsb' 8 8).toNat = p.ngf
      ∧ (param1Word p).extractLsb' 16 16 = 0 := by
  obtain ⟨-, -, -, ngr, ngf, -, -, -⟩ := p.legal_iff.1 legal
  simp only [← BitVec.toNat_inj, param1Word, toNat_extractLsb'_ofNat, BitVec.ofNat_eq_ofNat, BitVec.toNat_ofNat]
  refine ⟨?_, ?_, ?_⟩ <;> omega

/-- Settles O42: the fields of PARAM0 and PARAM1 hold every legal parameter without overlap. -/
theorem constantRegisters : Obligations.ConstantRegisters := by
  intro s legal
  exact ⟨readValue_of_regAt (r := .id) rfl s, readValue_of_regAt (r := .version) rfl s,
    ⟨param0Word s.params, readValue_of_regAt (r := .param0) rfl s, param0Word_fields legal⟩,
    ⟨param1Word s.params, readValue_of_regAt (r := .param1) rfl s, param1Word_fields legal⟩,
    readValue_of_regAt (r := .param0) rfl State.reset, readValue_of_regAt (r := .param1) rfl State.reset⟩

/-- Settles O38: the offset names nothing or a read-only register, so the access is refused. -/
theorem badAccessesGetBusErrors : Obligations.BadAccessesGetBusErrors := by
  intro s rest a w legal outside bad
  have unmapped : bad → target s.params a.toNat = .unmapped := by
    rintro (unaligned | ⟨lo, hi⟩ | out)
    · exact target_of_unaligned _ unaligned
    · exact target_of_reserved _ lo hi
    · exact target_of_outside out
  refine ⟨fun next isBad => ?read, fun next refused => ?write, fun next => step_access legal next,
    fun next => step_access legal next⟩
  case read =>
    rw [step_access legal next, hostAccess, busRead_of_unmapped (s := setAgenda rest s) (unmapped isBad)]
    rfl
  case write =>
    rw [step_access legal next, hostAccess]
    rcases refused with isBad | readOnly
    · rw [busWrite_of_unmapped (s := setAgenda rest s) (unmapped isBad)]; rfl
    · rw [busWrite_of_readOnly readOnly]; rfl

/-- Settles O41: each write is stored by one register, whose word is the written one under the register's mask. -/
theorem registersReadBackMasked : Obligations.RegistersReadBackMasked := by
  refine ⟨fun s rest w a mask legal register next => ?_, fun s =>
    ⟨s.cfg.word_and_reserved, s.shift.word_and_reserved, s.irqEn.word_and_reserved, statusWord_and_reserved s,
      s.shape.word_and_reserved⟩⟩
  rcases register with ⟨idle, rfl, rfl⟩ | ⟨idle, rfl, rfl⟩ | ⟨idle, rfl, rfl⟩ | ⟨rfl, rfl⟩
  · exact step_write_then_read (r := .cfg) legal next rfl (writeReg_cfg_of_idle w idle) rfl rfl (word_cfgOfWord w) rfl
  · exact step_write_then_read (r := .shift) legal next rfl (writeReg_shift_of_idle w idle) rfl rfl
      (word_shiftOfWord w) rfl
  · exact step_write_then_read (r := .const) legal next rfl (writeReg_const_of_idle w idle) rfl rfl
      BitVec.and_allOnes.symm rfl
  · exact step_write_then_read (r := .irqEn) legal next rfl rfl rfl rfl (word_irqEnOfWord w) rfl

/-- Settles O22: both commands pass their checks and touch nothing but GSW_STATE and GSW_SHAPE. -/
theorem gswAllocAndFreeComplete : Obligations.GswAllocAndFreeComplete := by
  refine ⟨fun s cfgLegal free => ?alloc, fun s constructed => ?free, fun s => ?layout, Cfg.word_zero⟩
  case alloc =>
    exact ⟨_, exec_of_check_eq_none (check_gswAlloc cfgLegal free), rfl, rfl, Bool.or_false s.ovf,
      completed_finish_effect .gswAlloc s, sameMemoryBut_of_mem_eq rfl rfl rfl [] []⟩
  case free =>
    exact ⟨_, exec_of_check_eq_none (check_gswFree constructed), rfl, Cfg.word_zero, Bool.or_false s.ovf,
      completed_finish_effect .gswFree s, sameMemoryBut_of_mem_eq rfl rfl rfl [] []⟩
  case layout =>
    obtain ⟨k, ell, bgbit⟩ := s.shape.fields_word
    exact ⟨s.shape.word, readValue_of_regAt (r := .gswShape) rfl s, k, ell, bgbit, s.shape.word_and_reserved⟩

end Sys2Proof.Machine
end

section
/-! PROOFS. The words of a FREQ component: its 64-bit view and the width that memory holds (20_memory.md R52). -/

namespace Sys2Proof.Machine

/-- `sext` reads the residue alone. -/
theorem sext_congr {n : Nat} {v u : Int} (h : v % pow2 n = u % pow2 n) : sext n v = sext n u := by
  simp only [sext, h]

theorem sext_sext (n : Nat) (v : Int) : sext n (sext n v) = sext n v := sext_congr (sext_emod n v)

/-- Sign extension from a width above 32 leaves the low 32 bits and extends the bits above them. -/
theorem sext_add_low {n : Nat} (hn : 0 < n) (hi : Int) {lo : Int} (lo_nonneg : 0 ≤ lo) (lo_lt : lo < 2 ^ 32) :
    sext (n + 32) (hi * 2 ^ 32 + lo) = sext n hi * 2 ^ 32 + lo := by
  have shift_pow2 : ∀ k, pow2 (k + 32) = pow2 k * 2 ^ 32 := fun k => by rw [pow2_eq, pow2_eq, pow_add]
  have rem_nonneg := Int.emod_nonneg hi (pow2_pos n).ne'
  have rem_lt := Int.emod_lt_of_pos hi (pow2_pos n)
  have residue : (hi * 2 ^ 32 + lo) % pow2 (n + 32) = hi % pow2 n * 2 ^ 32 + lo := by
    have split_hi : hi * 2 ^ 32 + lo = hi % pow2 n * 2 ^ 32 + lo + hi / pow2 n * (pow2 n * 2 ^ 32) := by
      linear_combination (-(2 : Int) ^ 32) * Int.emod_add_ediv_mul hi (pow2 n)
    rw [shift_pow2, split_hi, Int.add_mul_emod_self_right, Int.emod_eq_of_lt (by omega) (by omega)]
  rw [sext, sext, residue, show n + 32 - 1 = n - 1 + 32 by omega, shift_pow2, shift_pow2]
  split <;> split <;> omega

/-- The low word of a number has its residue for every width up to 32. -/
theorem low32_emod {n : Nat} (hn : n ≤ 32) (v : Int) : ((low32 v).toNat : Int) % pow2 n = v % pow2 n := by
  have dvd : pow2 n ∣ 2 ^ 32 := by rw [pow2_eq]; exact pow_dvd_pow 2 hn
  have residue : ((low32 v).toNat : Int) = v % 2 ^ 32 := by rw [low32, BitVec.toNat_ofInt]; omega
  rw [residue, Int.emod_emod_of_dvd v dvd]

section
variable {p : Params}

theorem signHigh_eq_low32 (w : Word) : signHigh p w = low32 (sext (p.dw - 32) w.toNat) := rfl

/-- A component is its high word, sign-extended from the bits above 32, over its low word. -/
theorem component_eq (dw_ge : 33 ≤ p.dw) (lo hi : Word) :
    component p lo hi = sext (p.dw - 32) hi.toNat * 2 ^ 32 + lo.toNat := by
  have split_width := sext_add_low (n := p.dw - 32) (by omega) hi.toNat (Int.natCast_nonneg lo.toNat)
    (by exact_mod_cast lo.isLt)
  rw [Nat.sub_add_cancel (by omega)] at split_width
  rw [component, ← split_width]
  push_cast
  rfl

/-- The low half of a component's 64-bit view is its low word. -/
theorem extract_low_component (dw_ge : 33 ≤ p.dw) (lo hi : Word) :
    (BitVec.ofInt 64 (component p lo hi)).extractLsb' 0 32 = lo := by
  have lo_lt := lo.isLt
  apply BitVec.eq_of_toNat_eq
  rw [BitVec.extractLsb'_toNat, BitVec.toNat_ofInt, Nat.shiftRight_zero, component_eq dw_ge]
  omega

/-- The high half of a component's 64-bit view is its high word with the bits from DW up made sign bits. -/
theorem extract_high_component (dw_ge : 33 ≤ p.dw) (lo hi : Word) :
    (BitVec.ofInt 64 (component p lo hi)).extractLsb' 32 32 = signHigh p hi := by
  have lo_lt := lo.isLt
  apply BitVec.eq_of_toNat_eq
  rw [BitVec.extractLsb'_toNat, BitVec.toNat_ofInt, Nat.shiftRight_eq_div_pow, component_eq dw_ge, signHigh_eq_low32,
    low32, BitVec.toNat_ofInt]
  omega

/-- Two words read as one 64-bit number and cut to DW bits are the component of the two words. -/
theorem sext_toInt_append (dw_le : p.dw ≤ 64) (lo hi : Word) :
    sext p.dw (hi ++ lo : BitVec 64).toInt = component p lo hi := by
  have dvd : pow2 p.dw ∣ ((2 ^ 64 : Nat) : Int) := by
    rw [pow2_eq]; exact_mod_cast pow_dvd_pow 2 dw_le
  have toNat_eq : (hi ++ lo : BitVec 64).toNat = hi.toNat * 2 ^ 32 + lo.toNat := by
    rw [BitVec.toNat_append, ← Nat.shiftLeft_add_eq_or_of_lt lo.isLt, Nat.shiftLeft_eq]
  rw [component, ← toNat_eq]
  apply sext_congr
  rw [BitVec.toInt_eq_toNat_bmod, ← Int.emod_emod_of_dvd _ dvd, Int.bmod_emod, Int.emod_emod_of_dvd _ dvd]
  rfl

section
variable (dw_ge : 33 ≤ p.dw) (dw_le : p.dw ≤ 64)
include dw_ge dw_le

/-- The sign extension of a high word has the bits of the component. -/
theorem sext_signHigh (hi : Word) : sext (p.dw - 32) (signHigh p hi).toNat = sext (p.dw - 32) hi.toNat := by
  rw [signHigh_eq_low32, sext_congr (low32_emod (by omega) _), sext_sext]

theorem signHigh_signHigh (hi : Word) : signHigh p (signHigh p hi) = signHigh p hi := by
  rw [signHigh_eq_low32 (signHigh p hi), sext_signHigh dw_ge dw_le, ← signHigh_eq_low32]

/-- A component does not see the bits of its high word from DW up. -/
theorem component_signHigh (lo hi : Word) : component p lo (signHigh p hi) = component p lo hi := by
  rw [component_eq dw_ge, component_eq dw_ge, sext_signHigh dw_ge dw_le]

/-- A word put in the low half of a component's view replaces the low word. -/
theorem sext_low_replaced (lo hi w : Word) :
    sext p.dw ((BitVec.ofInt 64 (component p lo hi)).extractLsb' 32 32 ++ w : BitVec 64).toInt = component p w hi := by
  rw [extract_high_component dw_ge, sext_toInt_append dw_le, component_signHigh dw_ge dw_le]

/-- A word put in the high half of a component's view replaces the high word, which memory holds sign-extended. -/
theorem sext_high_replaced (lo hi w : Word) :
    sext p.dw (w ++ (BitVec.ofInt 64 (component p lo hi)).extractLsb' 0 32 : BitVec 64).toInt
      = component p lo (signHigh p w) := by
  rw [extract_low_component dw_ge, sext_toInt_append dw_le, component_signHigh dw_ge dw_le]

theorem heldWord_heldWord (a : Nat) (w : Word) : heldWord p a (heldWord p a w) = heldWord p a w := by
  by_cases high : p.isFreqHigh a = true
  · simp only [heldWord, high, if_true, signHigh_signHigh dw_ge dw_le]
  · simp only [heldWord, high, if_false, Bool.false_eq_true]

end

end

end Sys2Proof.Machine
end

section
/-! PROOFS. The offsets of ROM, RING and FREQ words on a legal configuration (20_memory.md R49, R50). -/

namespace Sys2Proof.Machine

/-- The width of a component on a legal configuration. -/
theorem legal_dw {p : Params} (legal : p.legal = true) : 33 ≤ p.dw ∧ p.dw ≤ 64 := by
  obtain ⟨-, -, -, -, -, dw, -, -⟩ := p.legal_iff.1 legal
  exact dw

/-- The sizes of a legal configuration, as far as the regions of the address map depend on them. -/
theorem legal_sizes {p : Params} (legal : p.legal = true) :
    p.l ≤ 2 ^ 12 ∧ p.rspace * p.n ≤ 2 ^ 21 ∧ p.fspace * p.l ≤ 2 ^ 20 := by
  obtain ⟨⟨-, logn_le⟩, -, -, -, -, -, rspace_le, fspace_le⟩ := p.legal_iff.1 legal
  have l_le : p.l ≤ 2 ^ 12 := Nat.pow_le_pow_right (by decide) (by omega)
  have n_le : p.n ≤ 2 ^ 13 := Nat.pow_le_pow_right (by decide) logn_le
  exact ⟨l_le, (Nat.mul_le_mul rspace_le n_le).trans_eq rfl, (Nat.mul_le_mul fspace_le l_le).trans_eq rfl⟩

section
variable {p : Params} (legal : p.legal = true) {a : Nat}

theorem target_of_twrom {i : Nat} (hi : i < p.twromWords) : target p (0x00010000 + 4 * i) = .twrom i := by
  simp only [target, within_iff, bne_iff_ne]
  rw [if_neg (by omega), if_neg (by omega), if_pos (by omega)]
  congr 1
  omega

include legal

theorem twromWords_le : 4 * p.twromWords ≤ 0x8000 := by
  have ⟨l_le, _, _⟩ := legal_sizes legal
  rw [Params.twromWords]
  omega

theorem target_of_brrom {i : Nat} (hi : i < p.l) : target p (0x00020000 + 4 * i) = .brrom i := by
  have twrom_le := twromWords_le legal
  simp only [target, within_iff, bne_iff_ne]
  rw [if_neg (by omega), if_neg (by omega), if_neg (by omega), if_pos (by omega)]
  congr 1
  omega

theorem target_of_twist {j : Nat} (hj : j < p.l) (sine : Bool) :
    target p (0x00030000 + 8 * j + if sine then 4 else 0) = .twist j sine := by
  have twrom_le := twromWords_le legal
  have ⟨l_le, _, _⟩ := legal_sizes legal
  cases sine <;> simp only [target, within_iff, bne_iff_ne, if_true, if_false, Bool.false_eq_true]
  all_goals
    rw [if_neg (by omega), if_neg (by omega), if_neg (by omega), if_neg (by omega), if_pos (by omega)]
    congr 1
    · omega
    · simp only [beq_iff_eq, beq_eq_false_iff_ne]; omega

theorem target_of_isRing (ring : p.isRing a = true) : target p a = .ring := by
  have twrom_le := twromWords_le legal
  have ⟨l_le, _, _⟩ := legal_sizes legal
  have ⟨aligned, lo, _⟩ := (isRing_iff p a).1 ring
  simp only [target, within_iff, bne_iff_ne]
  rw [if_neg (by omega), if_neg (by omega), if_neg (by omega), if_neg (by omega), if_neg (by omega), if_pos ring]

/-- RING ends below the first FREQ word. -/
theorem isFreq_eq_false_of_isRing (ring : p.isRing a = true) : p.isFreq a = false := by
  have ⟨_, ring_le, _⟩ := legal_sizes legal
  have ⟨_, _, hi⟩ := (isRing_iff p a).1 ring
  apply Bool.eq_false_iff.2
  intro freq
  have ⟨_, lo, _⟩ := (isFreq_iff p a).1 freq
  omega

theorem target_of_isFreq (freq : p.isFreq a = true) : target p a = .freq := by
  have twrom_le := twromWords_le legal
  have ⟨l_le, _, _⟩ := legal_sizes legal
  have ⟨aligned, lo, _⟩ := (isFreq_iff p a).1 freq
  have noRing : ¬ p.isRing a = true := fun ring => by
    rw [isFreq_eq_false_of_isRing legal ring] at freq
    exact Bool.false_ne_true freq
  simp only [target, within_iff, bne_iff_ne]
  rw [if_neg (by omega), if_neg (by omega), if_neg (by omega), if_neg (by omega), if_neg (by omega), if_neg noRing,
    if_pos freq]

theorem target_of_memory (memory : (p.isRing a || p.isFreq a) = true) : target p a = .ring ∨ target p a = .freq :=
  (Bool.or_eq_true_iff.1 memory).imp (target_of_isRing legal) (target_of_isFreq legal)

/-- A RING word is held as it is written. -/
theorem heldWord_of_isRing (ring : p.isRing a = true) (w : Word) : heldWord p a w = w := by
  simp [heldWord, Params.isFreqHigh, isFreq_eq_false_of_isRing legal ring]

end

/-- The index of word c of element r stays inside the m elements of n words. -/
theorem mul_add_lt_mul {r c m n : Nat} (hr : r < m) (hc : c < n) : r * n + c < m * n :=
  calc r * n + c < (r + 1) * n := by rw [Nat.add_one_mul]; exact Nat.add_lt_add_left hc _
    _ ≤ m * n := Nat.mul_le_mul_right n hr

section
variable {p : Params}

theorem isRing_ringAddr {r c : Nat} (hr : r < p.rspace) (hc : c < p.n) : p.isRing (p.ringAddr r c) = true := by
  have index_lt := mul_add_lt_mul hr hc
  rw [isRing_iff, Params.ringAddr, ringBase]
  omega

theorem isFreq_freqAddr {f j q : Nat} (hf : f < p.fspace) (hj : j < p.l) (hq : q < 4) :
    p.isFreq (p.freqAddr f j q) = true := by
  have index_lt := mul_add_lt_mul hf hj
  rw [isFreq_iff, Params.freqAddr, freqBase]
  omega

/-- The words of an entry stand at different offsets. -/
theorem freqAddr_inj (f j : Nat) {q q' : Nat} : p.freqAddr f j q = p.freqAddr f j q' ↔ q = q' := by
  simp [Params.freqAddr]

/-- Memory holds words 1 and 3 of an entry sign-extended and words 0 and 2 as they are. -/
theorem heldWord_freqAddr {f j q : Nat} (hf : f < p.fspace) (hj : j < p.l) (hq : q < 4) (w : Word) :
    heldWord p (p.freqAddr f j q) w = if q % 2 = 0 then w else signHigh p w := by
  have odd_iff : p.freqAddr f j q % 8 = 4 ↔ ¬ q % 2 = 0 := by
    rw [Params.freqAddr, freqBase]
    omega
  by_cases even : q % 2 = 0 <;>
    simp [heldWord, Params.isFreqHigh, isFreq_freqAddr hf hj hq, odd_iff, even]

theorem aligned_of_memory {a : Nat} (memory : (p.isRing a || p.isFreq a) = true) : a % 4 = 0 := by
  rcases Bool.or_eq_true_iff.1 memory with ring | freq
  · exact ((isRing_iff p a).1 ring).1
  · exact ((isFreq_iff p a).1 freq).1

/-- No RING or FREQ offset of a legal configuration exceeds the bus address. -/
theorem toNat_ofNat_of_memory (legal : p.legal = true) {a : Nat} (memory : (p.isRing a || p.isFreq a) = true) :
    (BitVec.ofNat 32 a).toNat = a := by
  have ⟨_, ring_le, freq_le⟩ := legal_sizes legal
  rw [BitVec.toNat_ofNat, Nat.mod_eq_of_lt]
  rcases Bool.or_eq_true_iff.1 memory with ring | freq
  · have ⟨_, _, hi⟩ := (isRing_iff p a).1 ring
    omega
  · have ⟨_, _, hi⟩ := (isFreq_iff p a).1 freq
    omega

end

end Sys2Proof.Machine
end

section
/-! PROOFS. One word of memory in canonical form: what it holds, and what a store of it changes
(20_memory.md R51, R52). -/

namespace Sys2Proof.Machine

/-- An entry is read from its four words. -/
theorem freqEntry_eq (s : State) (f j : Nat) : s.freqEntry f j =
    { re := component s.params (s.word (s.params.freqAddr f j 0)) (s.word (s.params.freqAddr f j 1))
      im := component s.params (s.word (s.params.freqAddr f j 2)) (s.word (s.params.freqAddr f j 3)) } := rfl

theorem Memory.mem_of_get? {m : Memory} {a : Nat} {w : Word} (listed : m.get? a = some w) : (a, w) ∈ m := by
  induction m with
  | nil => exact nomatch listed
  | cons c m ih =>
    rw [Memory.get?] at listed
    split at listed
    · next here =>
      obtain rfl := here
      obtain rfl := Option.some.inj listed
      exact List.mem_cons_self
    · exact List.mem_cons_of_mem c (ih listed)

/-- Memory in canonical form lists nothing at an unaligned offset. -/
theorem Memory.get?_of_unaligned {p : Params} {m : Memory} (canonical : Memory.wf p m) {a : Nat}
    (unaligned : a % 4 ≠ 0) : m.get? a = none := by
  obtain ⟨-, entries⟩ := canonical
  refine Option.eq_none_iff_forall_ne_some.2 fun w listed => unaligned ?_
  obtain ⟨memory, -⟩ := entries _ (Memory.mem_of_get? listed)
  exact aligned_of_memory memory

section
variable {s : State} (legal : s.params.legal = true) (canonical : s.memOk)
include legal canonical

/-- Every word reads as memory holds it at its offset. -/
theorem heldWord_word (a : Nat) : heldWord s.params a (s.word a) = s.word a := by
  have ⟨dw_ge, dw_le⟩ := legal_dw legal
  obtain ⟨-, entries⟩ := canonical
  rw [State.word, State.wordIn]
  split
  · next w listed =>
    obtain ⟨-, held⟩ := entries _ (Memory.mem_of_get? listed)
    exact held
  · exact heldWord_heldWord dw_ge dw_le a _

section
variable {a : Nat} (memory : (s.params.isRing a || s.params.isFreq a) = true) (w : Word)
include memory

/-- A host write keeps memory in canonical form. -/
theorem memOk_storeHeld : (s.storeWords a [heldWord s.params a w]).memOk := by
  have ⟨dw_ge, dw_le⟩ := legal_dw legal
  refine Memory.wf_store canonical a _ fun i hi => ?_
  obtain rfl : i = 0 := Nat.lt_one_iff.1 hi
  exact ⟨memory, heldWord_heldWord dw_ge dw_le a w⟩

/-- A host write changes the word at its offset alone. -/
theorem word_storeHeld (b : Nat) : (s.storeWords a [heldWord s.params a w]).word b
    = if b = a then heldWord s.params a w else s.word b := by
  split
  · next same =>
    obtain rfl := same
    exact word_storeWords_inside s b [heldWord s.params b w] 0 Nat.one_pos
  · next other =>
    by_cases inside : a < b ∧ b < a + 4
    · have aligned := aligned_of_memory memory
      have unaligned : b % 4 ≠ 0 := by omega
      have notListed := Memory.get?_of_unaligned (memOk_storeHeld legal canonical memory w) unaligned
      simp only [State.word, State.wordIn, notListed, Memory.get?_of_unaligned canonical unaligned,
        storeWords_params, storeWords_epoch]
    · exact word_storeWords_outside s a _ b (by rw [List.length_singleton]; omega)

end

section
variable {f j q : Nat} (hf : f < s.params.fspace) (hj : j < s.params.l) (hq : q < 4)
include hf hj hq

/-- Word q of an entry is a half of its component's 64-bit view. -/
theorem word_freqAddr : s.word (s.params.freqAddr f j q)
    = let v := BitVec.ofInt 64 (if q < 2 then (s.freqEntry f j).re else (s.freqEntry f j).im)
      if q % 2 = 0 then v.extractLsb' 0 32 else v.extractLsb' 32 32 := by
  have ⟨dw_ge, _⟩ := legal_dw legal
  have held := heldWord_word legal canonical (s.params.freqAddr f j q)
  rw [heldWord_freqAddr hf hj hq] at held
  rw [freqEntry_eq]
  interval_cases q <;> simp only [Nat.reduceLT, Nat.reduceMod, one_ne_zero, reduceIte] at held ⊢
  · rw [extract_low_component dw_ge]
  · rw [extract_high_component dw_ge, held]
  · rw [extract_low_component dw_ge]
  · rw [extract_high_component dw_ge, held]

/-- A host write of word q of an entry replaces a half of its component's 64-bit view. -/
theorem freqEntry_storeHeld (w : Word) :
    (s.storeWords (s.params.freqAddr f j q) [heldWord s.params (s.params.freqAddr f j q) w]).freqEntry f j
    = let x := s.freqEntry f j
      let v := BitVec.ofInt 64 (if q < 2 then x.re else x.im)
      let v' : BitVec 64 := if q % 2 = 0 then v.extractLsb' 32 32 ++ w else w ++ v.extractLsb' 0 32
      let new := sext s.params.dw v'.toInt
      if q < 2 then ⟨new, x.im⟩ else ⟨x.re, new⟩ := by
  have ⟨dw_ge, dw_le⟩ := legal_dw legal
  have written := word_storeHeld legal canonical (Bool.or_eq_true_iff.2 (.inr (isFreq_freqAddr hf hj hq))) w
  rw [freqEntry_eq, freqEntry_eq]
  simp only [storeWords_params, written, freqAddr_inj]
  rw [heldWord_freqAddr hf hj hq]
  interval_cases q <;> simp only [Nat.reduceLT, Nat.reduceMod, Nat.reduceEqDiff, one_ne_zero, reduceIte]
  · rw [sext_low_replaced dw_ge dw_le]
  · rw [sext_high_replaced dw_ge dw_le]
  · rw [sext_low_replaced dw_ge dw_le]
  · rw [sext_high_replaced dw_ge dw_le]

end

end

end Sys2Proof.Machine
end

section
/-! PROOFS. The answers of the bus to an access of RING, FREQ or a ROM (20_memory.md R50 to R52, R66, R68, R69). -/

namespace Sys2Proof.Machine

/-- A write to a ROM gets a bus error (R66). -/
theorem busWrite_of_rom {s : State} {n : Nat} (w : Word) (rom : (∃ i, target s.params n = .twrom i)
    ∨ (∃ i, target s.params n = .brrom i) ∨ ∃ j sine, target s.params n = .twist j sine) :
    busWrite n w s = .next (busError true s) := by
  rcases rom with ⟨_, named⟩ | ⟨_, named⟩ | ⟨_, _, named⟩ <;> rw [busWrite, named]

section
variable {s : State} {rest : List Event} {a w : Word} (legal : s.params.legal = true)

include legal

theorem step_read_of_some {v : Word} (next : s.agenda = .access (.read a) :: rest)
    (value : readValue a.toNat s = some v) :
    step s = .next { s with agenda := rest, resp := some { data := some v, error := false } } := by
  have value' : readValue a.toNat (setAgenda rest s) = some v := value
  rw [step_access legal next, hostAccess, busRead, value']
  rfl

theorem step_read_of_none (next : s.agenda = .access (.read a) :: rest) (noValue : readValue a.toNat s = none) :
    step s = .next { s with agenda := rest, busErr := true, resp := some { data := some 0, error := true } } := by
  have noValue' : readValue a.toNat (setAgenda rest s) = none := noValue
  rw [step_access legal next, hostAccess, busRead, noValue']
  rfl

theorem step_write_of_busError (next : s.agenda = .access (.write a w) :: rest)
    (refused : busWrite a.toNat w (setAgenda rest s) = .next (busError true (setAgenda rest s))) :
    step s = .next { s with agenda := rest, busErr := true, resp := some { data := none, error := true } } := by
  rw [step_access legal next, hostAccess, refused]
  rfl

section
variable (memory : (s.params.isRing a.toNat || s.params.isFreq a.toNat) = true)
include memory

theorem readValue_of_memory : readValue a.toNat s = if s.busy then none else some (s.word a.toNat) := by
  rcases target_of_memory legal memory with h | h <;> simp only [readValue, h]

theorem busWrite_of_memory (w : Word) : busWrite a.toNat w s = .next (writeMem a.toNat w s) := by
  rcases target_of_memory legal memory with h | h <;> simp only [busWrite, h]

theorem step_read_memory_of_idle (idle : s.busy = false) (next : s.agenda = .access (.read a) :: rest) :
    step s = .next { s with agenda := rest, resp := some { data := some (s.word a.toNat), error := false } } :=
  step_read_of_some legal next (by rw [readValue_of_memory legal memory, idle]; rfl)

theorem step_read_memory_of_busy (busy : s.busy = true) (next : s.agenda = .access (.read a) :: rest) :
    step s = .next { s with agenda := rest, busErr := true, resp := some { data := some 0, error := true } } :=
  step_read_of_none legal next (by rw [readValue_of_memory legal memory, busy]; rfl)

theorem step_write_memory_of_idle (idle : s.busy = false) (next : s.agenda = .access (.write a w) :: rest) :
    step s = .next { s with
      agenda := rest
      mem := (s.storeWords a.toNat [heldWord s.params a.toNat w]).mem
      resp := some { data := none, error := false } } := by
  have idle' : (setAgenda rest s).busy = false := idle
  rw [step_access legal next, hostAccess, busWrite_of_memory (s := setAgenda rest s) legal memory, writeMem, idle']
  rfl

theorem step_write_memory_of_busy (busy : s.busy = true) (next : s.agenda = .access (.write a w) :: rest) :
    step s = .next { s with agenda := rest, busErr := true, resp := some { data := none, error := true } } := by
  have busy' : (setAgenda rest s).busy = true := busy
  refine step_write_of_busError legal next ?_
  rw [busWrite_of_memory (s := setAgenda rest s) legal memory, writeMem, busy', if_pos rfl]

end

/-- CFG, SHIFT and CONST are refused while BUSY (R69). -/
theorem step_write_parameter_of_busy (busy : s.busy = true) (next : s.agenda = .access (.write a w) :: rest)
    (parameter : a = 0x010 ∨ a = 0x014 ∨ a = 0x018) :
    step s = .next { s with agenda := rest, busErr := true, resp := some { data := none, error := true } } := by
  have busy' : (setAgenda rest s).busy = true := busy
  refine step_write_of_busError legal next ?_
  rcases parameter with rfl | rfl | rfl
  · rw [busWrite_of_regAt (r := .cfg) rfl, writeReg, busy', if_pos rfl]
  · rw [busWrite_of_regAt (r := .shift) rfl, writeReg, busy', if_pos rfl]
  · rw [busWrite_of_regAt (r := .const) rfl, writeReg, busy', if_pos rfl]

end

end Sys2Proof.Machine
end

section
/-! PROOFS. The statements of 20_memory.md on the host's view of RING, FREQ and the ROMs. -/

namespace Sys2Proof.Machine

/-- Settles O34: a memory word is refused by its region, a parameter register by its write rule. -/
theorem busyAccessesAreRefused : Obligations.BusyAccessesAreRefused := by
  intro s rest a w legal busy
  refine ⟨fun next memory => step_read_memory_of_busy legal memory busy next, fun next refused => ?_⟩
  rcases refused with memory | parameter
  · exact step_write_memory_of_busy legal memory busy next
  · exact step_write_parameter_of_busy legal busy next parameter

/-- Settles O36: the offset of (r, c) is a RING word, which memory holds as it is written. -/
theorem ringWordsReadAndWrite : Obligations.RingWordsReadAndWrite := by
  intro s rest r c w legal canonical hr hc a
  have ring := isRing_ringAddr hr hc
  have addr : a.toNat = s.params.ringAddr r c := toNat_ofNat_of_memory legal (Bool.or_eq_true_iff.2 (.inl ring))
  rw [← addr] at ring
  have memory : (s.params.isRing a.toNat || s.params.isFreq a.toNat) = true := Bool.or_eq_true_iff.2 (.inl ring)
  have written := word_storeHeld legal canonical memory w
  refine ⟨fun idle next => ?read, fun idle next => ?write, step_read_memory_of_busy legal memory,
    step_write_memory_of_busy legal memory⟩
  case read =>
    rw [State.ringCoef, ← addr]
    exact step_read_memory_of_idle legal memory idle next
  case write =>
    refine ⟨_, step_write_memory_of_idle legal memory idle next, ?same, fun b other => ?others⟩
    case same =>
      rw [State.ringCoef, ← addr]
      exact (written a.toNat).trans ((if_pos rfl).trans (heldWord_of_isRing legal ring w))
    case others => exact (written b).trans (if_neg other)

/-- Settles O37: the words of an entry are the halves of its components' views, and a write of one of them mixes the
written word with the component's other word. -/
theorem freqWordsReadAndWrite : Obligations.FreqWordsReadAndWrite := by
  intro s rest f j q w legal canonical hf hj hq a x v v' new
  have freq := isFreq_freqAddr hf hj hq
  have addr : a.toNat = s.params.freqAddr f j q := toNat_ofNat_of_memory legal (Bool.or_eq_true_iff.2 (.inr freq))
  rw [← addr] at freq
  have memory : (s.params.isRing a.toNat || s.params.isFreq a.toNat) = true := Bool.or_eq_true_iff.2 (.inr freq)
  refine ⟨fun idle next => ?read, fun idle next => ?write, step_read_memory_of_busy legal memory,
    step_write_memory_of_busy legal memory⟩
  case read =>
    rw [← word_freqAddr legal canonical hf hj hq, ← addr]
    exact step_read_memory_of_idle legal memory idle next
  case write =>
    refine ⟨_, step_write_memory_of_idle legal memory idle next, ?entry, fun b other => ?others⟩
    case entry =>
      rw [addr]
      exact freqEntry_storeHeld legal canonical hf hj hq w
    case others => exact (word_storeHeld legal canonical memory w b).trans (if_neg other)

/-- Settles O39: the offset names the ROM word, which is read in any state and never written. -/
theorem romsAreReadOnly : Obligations.RomsAreReadOnly := by
  intro s rest a legal v word
  suffices answers : readValue a.toNat s = some v
      ∧ ∀ w, busWrite a.toNat w (setAgenda rest s) = .next (busError true (setAgenda rest s)) by
    obtain ⟨value, refused⟩ := answers
    exact ⟨fun next => step_read_of_some legal next value,
      fun w next => step_write_of_busError legal next (refused w)⟩
  rcases word with ⟨i, hi, addr, rfl⟩ | ⟨i, hi, addr, rfl⟩ | ⟨j, hj, addr, rfl⟩ | ⟨j, hj, addr, rfl⟩ <;> rw [addr]
  · have named := target_of_twrom (p := s.params) hi
    exact ⟨by rw [readValue, named]; rfl, fun w => busWrite_of_rom w (.inl ⟨i, named⟩)⟩
  · have named := target_of_brrom legal hi
    exact ⟨by rw [readValue, named], fun w => busWrite_of_rom w (.inr (.inl ⟨i, named⟩))⟩
  · have named : target s.params (0x00030000 + 8 * j) = .twist j false := target_of_twist legal hj false
    exact ⟨by rw [readValue, named]; rfl, fun w => busWrite_of_rom w (.inr (.inr ⟨j, false, named⟩))⟩
  · have named : target s.params (0x00030000 + 8 * j + 4) = .twist j true := target_of_twist legal hj true
    exact ⟨by rw [readValue, named]; rfl, fun w => busWrite_of_rom w (.inr (.inr ⟨j, true, named⟩))⟩

end Sys2Proof.Machine
end

section
/-! PROOFS. The nested series of the ROM generator against the real cosine and sine (notes/assumptions/11.md). -/

namespace Sys2Proof.Machine

open Finset in
/-- The partial sum of the exponential series at an imaginary argument, split into its real and imaginary part. -/
theorem sum_exp_mul_I (x : ℝ) (n : Nat) :
    ∑ m ∈ range (2 * n), ((x : ℂ) * Complex.I) ^ m / (m.factorial : ℂ)
      = ((∑ i ∈ range n, (-(x ^ 2)) ^ i / (2 * i).factorial : ℝ) : ℂ)
        + ((x * ∑ i ∈ range n, (-(x ^ 2)) ^ i / (2 * i + 1).factorial : ℝ) : ℂ) * Complex.I := by
  induction n with
  | zero => simp
  | succ n ih =>
    have even : ((x : ℂ) * Complex.I) ^ (2 * n) = (-(x : ℂ) ^ 2) ^ n := by rw [pow_mul, mul_pow, Complex.I_sq]; ring
    have odd : ((x : ℂ) * Complex.I) ^ (2 * n + 1) = (-(x : ℂ) ^ 2) ^ n * (x * Complex.I) := by rw [pow_succ, even]
    rw [Nat.mul_succ, sum_range_succ, sum_range_succ, ih, sum_range_succ, sum_range_succ, even, odd]
    push_cast
    ring

/-- The alternating series `1 - t/((q+1)(q+2)) * (1 - t/((q+3)(q+4)) * ...)` over the reals, cut after `n` terms: at
`t = x^2` that of cos x for `q = 0` and that of sin x / x for `q = 1`. -/
noncomputable def nestedSeries (t : ℝ) : (n : Nat) → (q : Nat) → ℝ
  | 0, _ => 1
  | n + 1, q => 1 - t * nestedSeries t n (q + 2) / ((q + 1) * (q + 2) : Nat)

open Finset in
theorem nestedSeries_eq_sum (t : ℝ) (n q : Nat) :
    nestedSeries t n q = ∑ i ∈ range (n + 1), q.factorial * ((-t) ^ i / (2 * i + q).factorial) := by
  induction n generalizing q with
  | zero => simp [nestedSeries, Nat.factorial_ne_zero]
  | succ n ih =>
    have fact_q : ((q + 2).factorial : ℝ) = ((q + 1) * (q + 2) : Nat) * q.factorial := by
      rw [Nat.factorial_succ, Nat.factorial_succ]; push_cast; ring
    have first : (q.factorial : ℝ) * ((-t) ^ 0 / (2 * 0 + q).factorial) = 1 := by
      simp [Nat.factorial_ne_zero]
    have later (i : Nat) : (q.factorial : ℝ) * ((-t) ^ (i + 1) / (2 * (i + 1) + q).factorial)
        = -(t / ((q + 1) * (q + 2) : Nat)) * ((q + 2).factorial * ((-t) ^ i / (2 * i + (q + 2)).factorial)) := by
      rw [fact_q, show 2 * (i + 1) + q = 2 * i + (q + 2) by ring]
      field_simp
      ring
    rw [sum_range_succ', first, sum_congr rfl fun i _ => later i, ← mul_sum, ← ih, nestedSeries]
    ring

/-- Ten terms of the series give cos and sin of an angle in [0, 1] to 64 fraction bits. -/
theorem cos_sin_nestedSeries_error {x : ℝ} (x_nonneg : 0 ≤ x) (x_le : x ≤ 1) :
    |Real.cos x - nestedSeries (x ^ 2) 10 0| ≤ 1 / 2 ^ 64
      ∧ |Real.sin x - x * nestedSeries (x ^ 2) 10 1| ≤ 1 / 2 ^ 64 := by
  have norm_eq : ‖(x : ℂ) * Complex.I‖ = x := by simp [abs_of_nonneg x_nonneg]
  have bound := Complex.exp_bound (x := (x : ℂ) * Complex.I) (by rw [norm_eq]; exact x_le) (n := 2 * 11) (by decide)
  have small : x ^ (2 * 11) * ((Nat.succ (2 * 11) : ℝ) * (((2 * 11).factorial : ℝ) * ((2 * 11 : Nat) : ℝ))⁻¹)
      ≤ 1 / 2 ^ 64 := by
    refine (mul_le_of_le_one_left (by positivity) (pow_le_one₀ x_nonneg x_le)).trans ?_
    norm_num [Nat.factorial]
  rw [norm_eq, sum_exp_mul_I, Complex.exp_mul_I, ← Complex.ofReal_cos, ← Complex.ofReal_sin, add_sub_add_comm,
    ← sub_mul, ← Complex.ofReal_sub, ← Complex.ofReal_sub] at bound
  have re_le := (Complex.abs_re_le_norm _).trans (bound.trans small)
  have im_le := (Complex.abs_im_le_norm _).trans (bound.trans small)
  simp only [Complex.add_re, Complex.add_im, Complex.re_ofReal_mul, Complex.im_ofReal_mul, Complex.ofReal_re,
    Complex.ofReal_im, Complex.I_re, Complex.I_im, mul_zero, mul_one, add_zero, zero_add] at re_le im_le
  rw [nestedSeries_eq_sum, nestedSeries_eq_sum]
  simp only [Nat.factorial_zero, Nat.factorial_one, Nat.cast_one, one_mul, add_zero]
  exact ⟨re_le, im_le⟩

end Sys2Proof.Machine
end

section
/-! PROOFS. The fixed-point cosine of the ROM generator is within 16 units of 2^64 times the real cosine
(notes/assumptions/11.md). -/

namespace Sys2Proof.Machine

/-- The fixed-point number `v` stands for the real `x`, up to `e` units of its last place. -/
def Approx (e : ℝ) (v : Nat) (x : ℝ) : Prop := |(v : ℝ) - 2 ^ 64 * x| ≤ e

theorem Approx.mono {e f x : ℝ} {v : Nat} (h : Approx e v x) (le : e ≤ f) : Approx f v x := le_trans h le

/-- A nearby real costs its distance. -/
theorem Approx.of_close {e f x y : ℝ} {v : Nat} (h : Approx e v x) (close : |y - x| ≤ f / 2 ^ 64) :
    Approx (e + f) v y := by
  have scaled : |2 ^ 64 * x - 2 ^ 64 * y| ≤ f := by
    rw [← mul_sub, abs_mul, abs_sub_comm, abs_of_pos (by positivity)]
    exact (le_div_iff₀' (by positivity)).1 close
  exact (abs_sub_le _ _ _).trans (add_le_add h scaled)

/-- A truncating division divides the error and adds one unit. -/
theorem Approx.div {e x : ℝ} {v : Nat} (h : Approx e v x) (d : Nat) : Approx (e / d + 1) (v / d) (x / d) := by
  have truncated : |((v / d : Nat) : ℝ) - v / d| ≤ 1 := by
    have nonneg : (0 : ℝ) ≤ (v : ℝ) / d := by positivity
    have lower := Nat.sub_one_lt_floor ((v : ℝ) / d)
    have upper := Nat.floor_le nonneg
    rw [Nat.floor_div_eq_div] at lower upper
    rw [abs_le]
    constructor <;> linarith
  have divided : |(v : ℝ) / d - 2 ^ 64 * (x / d)| ≤ e / d := by
    rw [← mul_div_assoc, ← sub_div, abs_div, Nat.abs_cast]
    exact div_le_div_of_nonneg_right h (Nat.cast_nonneg d)
  exact ((abs_sub_le _ _ _).trans (add_le_add truncated divided)).trans_eq (add_comm _ _)

/-- A fixed-point product adds the errors of its factors and one unit. -/
theorem Approx.mul {e f x y : ℝ} {u v : Nat} (hu : Approx e u x) (hv : Approx f v y) (x_nonneg : 0 ≤ x) (x_le : x ≤ 1)
    (v_le : v ≤ fixOne) : Approx (e + f + 1) (u * v / fixOne) (x * y) := by
  have one_eq : (fixOne : ℝ) = 2 ^ 64 := by norm_num [fixOne]
  have v_le' : (v : ℝ) ≤ 2 ^ 64 := (Nat.cast_le.2 v_le).trans_eq one_eq
  have scaled_nonneg : (0 : ℝ) ≤ 2 ^ 64 * x := mul_nonneg (by positivity) x_nonneg
  have product : Approx ((e + f) * 2 ^ 64) (u * v) (2 ^ 64 * (x * y)) := by
    have left : |(u : ℝ) - 2 ^ 64 * x| * v ≤ e * 2 ^ 64 :=
      mul_le_mul hu v_le' (Nat.cast_nonneg v) ((abs_nonneg _).trans hu)
    have right : 2 ^ 64 * x * |(v : ℝ) - 2 ^ 64 * y| ≤ 2 ^ 64 * f :=
      mul_le_mul (mul_le_of_le_one_right (by positivity) x_le) hv (abs_nonneg _) (by positivity)
    calc |((u * v : Nat) : ℝ) - 2 ^ 64 * (2 ^ 64 * (x * y))|
        = |((u : ℝ) - 2 ^ 64 * x) * v + 2 ^ 64 * x * (v - 2 ^ 64 * y)| := by push_cast; ring_nf
      _ ≤ |(u : ℝ) - 2 ^ 64 * x| * v + 2 ^ 64 * x * |v - 2 ^ 64 * y| := by
          refine (abs_add_le _ _).trans_eq ?_
          rw [abs_mul, abs_mul, Nat.abs_cast, abs_of_nonneg scaled_nonneg]
      _ ≤ (e + f) * 2 ^ 64 := by linarith
  have quotient := product.div fixOne
  rwa [one_eq, mul_div_cancel_right₀ _ (by positivity), mul_div_cancel_left₀ _ (by positivity)] at quotient

/-- The complement to 1 has the same error. -/
theorem Approx.one_sub {e x : ℝ} {v : Nat} (h : Approx e v x) (v_le : v ≤ fixOne) : Approx e (fixOne - v) (1 - x) := by
  refine le_of_eq_of_le ?_ h
  rw [Nat.cast_sub v_le, abs_sub_comm (v : ℝ), fixOne]
  push_cast
  ring_nf

/-! ### The series -/

theorem cosSeries_le (x2 n k : Nat) : cosSeries x2 n k ≤ fixOne := by
  cases n with
  | zero => exact le_rfl
  | succ n => exact Nat.sub_le _ _

theorem sincSeries_le (x2 n k : Nat) : sincSeries x2 n k ≤ fixOne := by
  cases n with
  | zero => exact le_rfl
  | succ n => exact Nat.sub_le _ _

/-- One level of a nested series keeps the error at that of its square plus 3: the next level's error is divided by at
least 2. -/
theorem Approx.series_step {e t y : ℝ} {x2 c d : Nat} (ht : Approx e x2 t) (hc : Approx (e + 3) c y)
    (t_nonneg : 0 ≤ t) (t_le : t ≤ 1) (x2_le : x2 ≤ fixOne) (c_le : c ≤ fixOne) (d_ge : 2 ≤ d) :
    Approx (e + 3) (fixOne - (x2 * c / fixOne) / d) (1 - t * y / d) := by
  have e_nonneg : 0 ≤ e := (abs_nonneg _).trans ht
  have term_le : x2 * c / fixOne / d ≤ fixOne :=
    (Nat.div_le_self _ _).trans (Nat.div_le_of_le_mul (Nat.mul_le_mul x2_le c_le))
  refine (((ht.mul hc t_nonneg t_le c_le).div d).mono ?_).one_sub term_le
  have halved : (e + (e + 3) + 1) / d ≤ (e + (e + 3) + 1) / 2 :=
    div_le_div_of_nonneg_left (by linarith) (by norm_num) (by exact_mod_cast d_ge)
  linarith

theorem approx_fixOne {e : ℝ} (e_nonneg : 0 ≤ e) : Approx e fixOne 1 := by
  norm_num [Approx, fixOne, e_nonneg]

section
variable {e t : ℝ} {x2 : Nat} (ht : Approx e x2 t) (t_nonneg : 0 ≤ t) (t_le : t ≤ 1) (x2_le : x2 ≤ fixOne)
include ht t_nonneg t_le x2_le

theorem approx_cosSeries (n k : Nat) : Approx (e + 3) (cosSeries x2 n (k + 1)) (nestedSeries t n (2 * k)) := by
  induction n generalizing k with
  | zero => exact approx_fixOne (add_nonneg ((abs_nonneg _).trans ht) zero_le_three)
  | succ n ih =>
    have divisor : (2 * (k + 1) - 1) * (2 * (k + 1)) = (2 * k + 1) * (2 * k + 2) := rfl
    rw [cosSeries, divisor, nestedSeries]
    exact ht.series_step (ih (k + 1)) t_nonneg t_le x2_le (cosSeries_le _ _ _) (by nlinarith)

theorem approx_sincSeries (n k : Nat) : Approx (e + 3) (sincSeries x2 n (k + 1)) (nestedSeries t n (2 * k + 1)) := by
  induction n generalizing k with
  | zero => exact approx_fixOne (add_nonneg ((abs_nonneg _).trans ht) zero_le_three)
  | succ n ih =>
    have divisor : (2 * (k + 1)) * (2 * (k + 1) + 1) = (2 * k + 1 + 1) * (2 * k + 1 + 2) := rfl
    rw [sincSeries, divisor, nestedSeries]
    exact ht.series_step (ih (k + 1)) t_nonneg t_le x2_le (sincSeries_le _ _ _) (by nlinarith)

end

/-! ### The first quadrant -/

/-- The angle of the ROM index `a`, in radians. -/
noncomputable def romAngle (a : Nat) : ℝ := Real.pi * a / 8192

theorem approx_fixPi : Approx 1 fixPi Real.pi := by
  have lower := Real.pi_gt_d20
  have upper := Real.pi_lt_d20
  rw [Approx, fixPi, abs_le]
  constructor <;> norm_num <;> linarith

theorem approx_fixAngle {a : Nat} (ha : a ≤ 8192) : Approx 2 (fixAngle a) (romAngle a) := by
  have ha' : (a : ℝ) ≤ 8192 := by exact_mod_cast ha
  have product : Approx 8192 (fixPi * a) (Real.pi * a) := by
    rw [Approx, Nat.cast_mul, ← mul_assoc, ← sub_mul, abs_mul, Nat.abs_cast]
    exact (mul_le_mul approx_fixPi ha' (Nat.cast_nonneg a) zero_le_one).trans_eq (one_mul _)
  have quotient := product.div 8192
  norm_num at quotient
  exact quotient

section
variable {a : Nat} (ha : a ≤ 2048)
include ha

theorem romAngle_mem : 0 ≤ romAngle a ∧ romAngle a ≤ 1 := by
  have ha' : (a : ℝ) ≤ 2048 := by exact_mod_cast ha
  have pi_pos := Real.pi_pos
  have pi_le := Real.pi_le_four
  rw [romAngle]
  constructor
  · positivity
  · rw [div_le_one (by norm_num)]; nlinarith

theorem fixAngle_le : fixAngle a ≤ fixOne := by
  rw [fixAngle, fixPi, fixOne]
  omega

theorem approx_square_fixAngle : Approx 5 (fixAngle a * fixAngle a / fixOne) (romAngle a ^ 2) := by
  have ⟨angle_nonneg, angle_le⟩ := romAngle_mem ha
  have angle := approx_fixAngle (ha.trans (by decide))
  rw [sq]
  exact (angle.mul angle angle_nonneg angle_le (fixAngle_le ha)).mono (by norm_num)

theorem square_fixAngle_le : fixAngle a * fixAngle a / fixOne ≤ fixOne :=
  Nat.div_le_of_le_mul (Nat.mul_le_mul (fixAngle_le ha) (fixAngle_le ha))

theorem square_romAngle_le : romAngle a ^ 2 ≤ 1 :=
  pow_le_one₀ (romAngle_mem ha).1 (romAngle_mem ha).2

theorem approx_cos_of_le : Approx 16 (cosSeries (fixAngle a * fixAngle a / fixOne) 10 1) (Real.cos (romAngle a)) := by
  have ⟨angle_nonneg, angle_le⟩ := romAngle_mem ha
  have ⟨close, _⟩ := cos_sin_nestedSeries_error angle_nonneg angle_le
  have series := approx_cosSeries (approx_square_fixAngle ha) (sq_nonneg _) (square_romAngle_le ha)
    (square_fixAngle_le ha) 10 0
  exact (series.of_close close).mono (by norm_num)

theorem approx_sin_of_le :
    Approx 16 (fixAngle a * sincSeries (fixAngle a * fixAngle a / fixOne) 10 1 / fixOne) (Real.sin (romAngle a)) := by
  have ⟨angle_nonneg, angle_le⟩ := romAngle_mem ha
  have ⟨_, close⟩ := cos_sin_nestedSeries_error angle_nonneg angle_le
  have series := approx_sincSeries (approx_square_fixAngle ha) (sq_nonneg _) (square_romAngle_le ha)
    (square_fixAngle_le ha) 10 0
  have product := (approx_fixAngle (ha.trans (by decide))).mul series angle_nonneg angle_le (sincSeries_le _ _ _)
  exact (product.of_close close).mono (by norm_num)

end

/-- The angles of `a` and of its complement add up to a right angle. -/
theorem romAngle_complement {a : Nat} (ha : a ≤ 4096) : romAngle (4096 - a) = Real.pi / 2 - romAngle a := by
  rw [romAngle, romAngle, Nat.cast_sub ha]
  push_cast
  ring

/-- Up to pi/4 by the cosine of the angle, above by the sine of its complement. -/
theorem approx_fixCos {a : Nat} (ha : a ≤ 4096) : Approx 16 (fixCos a) (Real.cos (romAngle a)) := by
  rw [fixCos]
  split
  case isTrue low => exact approx_cos_of_le low
  case isFalse high =>
    rw [← Real.sin_pi_div_two_sub, ← romAngle_complement ha]
    exact approx_sin_of_le (by omega)

end Sys2Proof.Machine
end

section
/-! PROOFS. No ROM word is near a tie, so its fixed-point cosine rounds as the real one (40_transform.md R81,
41_frequency.md R92). -/

namespace Sys2Proof.Machine

/-- `q` is the integer nearest to `y`, and not in a tie. -/
def RoundsTo (q : Int) (y : ℝ) : Prop := |y - q| < 1 / 2

theorem RoundsTo.eq_round {q : Int} {y : ℝ} (h : RoundsTo q y) : q = round y := by
  have ⟨lower, upper⟩ := abs_lt.1 h
  exact (round_eq_iff.2 ⟨by linarith, by linarith⟩).symm

theorem RoundsTo.no_tie {q : Int} {y : ℝ} (h : RoundsTo q y) : |y - round y| < 1 / 2 := h.eq_round ▸ h

theorem RoundsTo.neg {q : Int} {y : ℝ} (h : RoundsTo q y) : RoundsTo (-q) (-y) := by
  rw [RoundsTo, Int.cast_neg, ← abs_neg, ← neg_sub']
  rwa [neg_neg]

/-- The nearest integer of a number within an integer bound lies within it. -/
theorem RoundsTo.abs_le {q b : Int} {y : ℝ} (h : RoundsTo q y) (y_le : |y| ≤ b) : |q| ≤ b := by
  have near : |(q : ℝ)| < b + 1 := by
    have := abs_sub_abs_le_abs_sub (q : ℝ) y
    rw [abs_sub_comm] at this
    linarith [show |y - q| < 1 / 2 from h]
  exact Int.lt_add_one_iff.1 (by exact_mod_cast near)

/-- Whether the fixed-point value `v` is more than 16 units from a tie of `toQ30`. -/
def farFromTie (v : Nat) : Bool := Nat.blt 16 ((v + 2 ^ 33) % 2 ^ 34) && Nat.blt ((v + 2 ^ 33) % 2 ^ 34 + 16) (2 ^ 34)

theorem Approx.roundsTo {v : Nat} {x : ℝ} (h : Approx 16 v x) (far : farFromTie v = true) :
    RoundsTo (toQ30 v) (2 ^ 30 * x) := by
  simp only [farFromTie, Bool.and_eq_true, Nat.blt_eq] at far
  obtain ⟨above, below⟩ := far
  have split : (v : ℝ) + 2 ^ 33 = 2 ^ 34 * toQ30 v + ((v + 2 ^ 33) % 2 ^ 34 : Nat) := by
    exact_mod_cast (Nat.div_add_mod (v + 2 ^ 33) (2 ^ 34)).symm
  have above' : (16 : ℝ) < ((v + 2 ^ 33) % 2 ^ 34 : Nat) := by exact_mod_cast above
  have below' : (((v + 2 ^ 33) % 2 ^ 34 : Nat) : ℝ) + 16 < 2 ^ 34 := by exact_mod_cast below
  have ⟨lower, upper⟩ := abs_le.1 h
  rw [RoundsTo, abs_lt, Int.cast_natCast]
  constructor <;> linarith

/-- Whether the `n` values of `fixCos` from `a` on are far from a tie. -/
def allFarFromTie (a : Nat) : (n : Nat) → Bool
  | 0 => true
  | n + 1 => allFarFromTie a n && farFromTie (fixCos (a + n))

theorem farFromTie_of_all {a n i : Nat} (all : allFarFromTie a n = true) (hi : i < n) :
    farFromTie (fixCos (a + i)) = true := by
  induction n with
  | zero => omega
  | succ n ih =>
    have ⟨earlier, last⟩ := Bool.and_eq_true_iff.1 all
    obtain lt | rfl := Nat.lt_succ_iff_lt_or_eq.1 hi
    · exact ih earlier lt
    · exact last

/-- The values of the first quadrant one by one, in blocks of 256, as no theory bounds how near a cosine comes to a tie.
The last block starts with index 4096. -/
theorem allFarFromTie_block : ∀ c < 17, allFarFromTie (256 * c) 256 = true := by decide +kernel

theorem farFromTie_fixCos {a : Nat} (ha : a ≤ 4096) : farFromTie (fixCos a) = true := by
  have block := allFarFromTie_block (a / 256) (by omega)
  have far := farFromTie_of_all block (Nat.mod_lt a (by decide))
  rwa [Nat.div_add_mod] at far

theorem toQ30_fixCos_roundsTo {a : Nat} (ha : a ≤ 4096) :
    RoundsTo (toQ30 (fixCos a)) (2 ^ 30 * Real.cos (romAngle a)) :=
  (approx_fixCos ha).roundsTo (farFromTie_fixCos ha)

/-- Every ROM cosine up to a half turn is rounded to nearest: beyond the first quadrant by `cos (pi - x) = - cos x`. -/
theorem cosQ30_roundsTo {a : Nat} (ha : a ≤ 8192) : RoundsTo (cosQ30 a) (2 ^ 30 * Real.cos (romAngle a)) := by
  rw [cosQ30]
  split
  case isTrue quadrant => exact toQ30_fixCos_roundsTo quadrant
  case isFalse beyond =>
    have supplement : romAngle (8192 - a) = Real.pi - romAngle a := by
      rw [romAngle, romAngle, Nat.cast_sub ha]; push_cast; ring
    have mirrored := (toQ30_fixCos_roundsTo (a := 8192 - a) (by omega)).neg
    rwa [supplement, Real.cos_pi_sub, mul_neg, neg_neg] at mirrored

/-- Every ROM sine up to a half turn is rounded to nearest: it is the cosine of the distance to the right angle. -/
theorem sinQ30_roundsTo {a : Nat} (ha : a ≤ 8192) : RoundsTo (sinQ30 a) (2 ^ 30 * Real.sin (romAngle a)) := by
  rw [sinQ30]
  split
  case isTrue quadrant =>
    rw [← Real.cos_pi_div_two_sub, ← romAngle_complement quadrant]
    exact toQ30_fixCos_roundsTo (Nat.sub_le _ _)
  case isFalse beyond =>
    have excess : romAngle (a - 4096) = romAngle a - Real.pi / 2 := by
      rw [romAngle, romAngle, Nat.cast_sub (by omega)]; push_cast; ring
    rw [← Real.cos_sub_pi_div_two, ← excess]
    exact toQ30_fixCos_roundsTo (by omega)

/-- The rounded multiple of a number in [-1, 1] stays in [-2^30, 2^30]. -/
theorem RoundsTo.abs_le_unit {q : Int} {x : ℝ} (h : RoundsTo q (2 ^ 30 * x)) (x_le : |x| ≤ 1) : |q| ≤ 2 ^ 30 := by
  refine h.abs_le ?_
  rw [abs_mul]
  norm_num
  linarith

end Sys2Proof.Machine
end

section
/-! PROOFS. The layout of TWROM (40_transform.md R81). -/

namespace Sys2Proof.Machine

/-- L is a power of two of at least 4, of exponent LOGL. -/
theorem legal_l {p : Params} (legal : p.legal = true) : p.l = 2 ^ p.logL ∧ 2 ≤ p.logL ∧ p.logL ≤ 12 := by
  obtain ⟨logn, -⟩ := p.legal_iff.1 legal
  exact ⟨rfl, Nat.le_sub_of_add_le logn.1, Nat.sub_le_of_le_add logn.2⟩

/-- Word `2^k - 8 + r` with `r < 2^k` belongs to the stage of size `2^k`. -/
theorem twrom_of_stage {k r : Nat} (hk : 3 ≤ k) (hr : r < 2 ^ k) : twrom (2 ^ k - 8 + r)
    = if r % 2 = 0 then cosQ30 (r / 2 * (16384 / 2 ^ k)) else sinQ30 (r / 2 * (16384 / 2 ^ k)) := by
  have size_ge : 2 ^ 3 ≤ 2 ^ k := Nat.pow_le_pow_right (by decide) hk
  have index : 2 ^ k - 8 + r + 8 = 2 ^ k + r := by omega
  have size : Nat.log2 (2 ^ k + r) = k := (Nat.log2_eq_iff (by omega)).2 ⟨by omega, by rw [pow_succ]; omega⟩
  rw [twrom, index, size, Nat.add_sub_cancel_left]

section
variable {k j : Nat} (hk : 3 ≤ k) (hj : j < 2 ^ k / 2)
include hk hj

theorem twrom_cos : twrom (2 ^ k - 8 + 2 * j) = cosQ30 (j * (16384 / 2 ^ k)) := by
  rw [twrom_of_stage hk (by omega), if_pos (by omega), Nat.mul_div_cancel_left j (by decide)]

theorem twrom_sin : twrom (2 ^ k - 8 + 2 * j + 1) = sinQ30 (j * (16384 / 2 ^ k)) := by
  rw [Nat.add_assoc, twrom_of_stage hk (by omega), if_neg (by omega), show (2 * j + 1) / 2 = j by omega]

end

/-- The ROM index of the twiddle j of the stage of size `2^k`, and its angle. -/
theorem romAngle_twiddle {k j : Nat} (hk : k ≤ 12) (hj : j < 2 ^ k / 2) :
    j * (16384 / 2 ^ k) ≤ 8192 ∧ romAngle (j * (16384 / 2 ^ k)) = 2 * Real.pi * j / 2 ^ k := by
  have split : 2 ^ k * 2 ^ (14 - k) = 2 ^ 14 := by rw [← pow_add, Nat.add_sub_of_le (by omega)]
  have quotient : 2 ^ 14 / 2 ^ k = 2 ^ (14 - k) := by rw [← split, Nat.mul_div_cancel_left _ (by positivity)]
  have split' : (2 : ℝ) ^ k * 2 ^ (14 - k) = 2 ^ 14 := by exact_mod_cast split
  rw [show 16384 = 2 ^ 14 by rfl, quotient]
  constructor
  · have := Nat.mul_le_mul_right (2 ^ (14 - k)) (show 2 * j ≤ 2 ^ k by omega)
    rw [Nat.mul_assoc, split] at this
    omega
  · rw [romAngle, div_eq_div_iff (by norm_num) (by positivity)]
    push_cast
    linear_combination Real.pi * j * split'

/-- Every word index lies in the stage of the largest size that is at most 8 more. -/
theorem exists_stage_of_lt_twromWords {p : Params} (legal : p.legal = true) {i : Nat} (hi : i < p.twromWords) :
    ∃ k j : Nat, 3 ≤ k ∧ 2 ^ k ≤ p.l ∧ j < 2 ^ k / 2 ∧ (i = 2 ^ k - 8 + 2 * j ∨ i = 2 ^ k - 8 + 2 * j + 1) := by
  obtain ⟨l_eq, logL_ge, -⟩ := legal_l legal
  have l_ge : 2 ^ 2 ≤ p.l := l_eq ▸ Nat.pow_le_pow_right (by decide) logL_ge
  rw [Params.twromWords] at hi
  have size_le := Nat.log2_self_le (show i + 8 ≠ 0 by omega)
  have lt_double := Nat.lt_log2_self (n := i + 8)
  have k_ge : 3 ≤ (i + 8).log2 := (Nat.le_log2 (by omega)).2 (by omega)
  have k_lt : (i + 8).log2 < p.logL + 1 := (Nat.log2_lt (by omega)).2 (by rw [pow_succ, ← l_eq]; omega)
  have size_ge : 2 ^ 3 ≤ 2 ^ (i + 8).log2 := Nat.pow_le_pow_right (by decide) k_ge
  have even : 2 ∣ 2 ^ (i + 8).log2 := dvd_pow_self 2 (by omega)
  rw [pow_succ] at lt_double
  exact ⟨(i + 8).log2, (i + 8 - 2 ^ (i + 8).log2) / 2, k_ge, l_eq ▸ Nat.pow_le_pow_right (by decide) (by omega),
    by omega, by omega⟩

/-- Settles O50: a word is the fixed-point cosine or sine of its angle, which rounds as the real one does. -/
theorem twiddlesAreRoundedCosines : Obligations.TwiddlesAreRoundedCosines := by
  intro p legal
  obtain ⟨l_eq, -, logL_le⟩ := legal_l legal
  refine ⟨rfl, fun i hi => exists_stage_of_lt_twromWords legal hi, fun k hk stage_le j hj => ?_⟩
  have k_le : k ≤ 12 := ((Nat.pow_le_pow_iff_right (by decide)).1 (l_eq ▸ stage_le)).trans logL_le
  obtain ⟨index_le, angle⟩ := romAngle_twiddle k_le hj
  have cosine := cosQ30_roundsTo index_le
  have sine := sinQ30_roundsTo index_le
  rw [← twrom_cos hk hj, angle] at cosine
  rw [← twrom_sin hk hj, angle] at sine
  have last_lt : 2 ^ k - 8 + 2 * j + 1 < p.twromWords := by
    have size_ge : 2 ^ 3 ≤ 2 ^ k := Nat.pow_le_pow_right (by decide) hk
    rw [Params.twromWords]
    omega
  exact ⟨last_lt, cosine.eq_round, cosine.no_tie, sine.eq_round, sine.no_tie,
    cosine.abs_le_unit (Real.abs_cos_le_one _), sine.abs_le_unit (Real.abs_sin_le_one _)⟩

end Sys2Proof.Machine
end

section
/-! PROOFS. The bit-reversal table (40_transform.md R80). -/

namespace Sys2Proof.Machine

theorem rev_lt (n i : Nat) : rev n i < 2 ^ n := by
  induction n generalizing i with
  | zero => exact Nat.one_pos
  | succ n ih =>
    have lower := ih (i / 2)
    have bit : i % 2 * 2 ^ n ≤ 1 * 2 ^ n := Nat.mul_le_mul_right _ (by omega)
    rw [rev, pow_succ]
    omega

/-- Bit b of the index becomes bit n-1-b: the low bit goes to the top, the others one place further below it. -/
theorem testBit_rev {n b : Nat} (i : Nat) (hb : b < n) : (rev n i).testBit (n - 1 - b) = i.testBit b := by
  induction n generalizing i b with
  | zero => omega
  | succ n ih =>
    rw [rev, Nat.mul_comm, Nat.testBit_two_pow_mul_add _ (rev_lt n (i / 2))]
    cases b with
    | zero => simp
    | succ b =>
      rw [if_pos (by omega), show n + 1 - 1 - (b + 1) = n - 1 - b by omega, ih (i / 2) (by omega), Nat.testBit_add_one]

theorem rev_rev {n i : Nat} (hi : i < 2 ^ n) : rev n (rev n i) = i := by
  refine Nat.eq_of_testBit_eq fun b => ?_
  by_cases hb : b < n
  · have outer := testBit_rev (rev n i) (show n - 1 - b < n by omega)
    rwa [show n - 1 - (n - 1 - b) = b by omega, testBit_rev i hb] at outer
  · have above : 2 ^ n ≤ 2 ^ b := Nat.pow_le_pow_right (by decide) (by omega)
    rw [Nat.testBit_lt_two_pow ((rev_lt n _).trans_le above), Nat.testBit_lt_two_pow (hi.trans_le above)]

/-- Settles O49: `rev` reverses the bits below its width, and the two tables evaluate. -/
theorem bitReversalTable : Obligations.BitReversalTable := by
  refine ⟨fun p _ i hi => ⟨rev_lt p.logL i, rev_rev hi, fun b hb => testBit_rev i hb⟩, by decide, by decide⟩

end Sys2Proof.Machine
end

section
/-! PROOFS. The twiddle rotation by size of its stage (40_transform.md R84). -/

namespace Sys2Proof.Machine

theorem rot_two (dw j : Nat) (dir : Dir) (v : Cplx) : rot dw 2 j dir v = Calc.exact v := rfl

theorem rot_four_zero (dw : Nat) (dir : Dir) (v : Cplx) : rot dw 4 0 dir v = Calc.exact v := rfl

theorem rot_four_one_fwd (dw : Nat) (v : Cplx) :
    rot dw 4 1 .fwd v = ⟨⟨v.im, sext dw (-v.re)⟩, !inRange dw (-v.re)⟩ := rfl

theorem rot_four_one_inv (dw : Nat) (v : Cplx) :
    rot dw 4 1 .inv v = ⟨⟨sext dw (-v.im), v.re⟩, !inRange dw (-v.im)⟩ := by
  simp [rot, Calc.cplx, Calc.exact, fit]

/-- From size 8 on the rotation is the product with the table's coefficient. -/
theorem rot_of_eight_le {m : Nat} (hm : 8 ≤ m) (dw j : Nat) (dir : Dir) (v : Cplx) :
    rot dw m j dir v = cmul30 dw (twiddle m j dir) v := by
  rw [rot.eq_def, if_neg (by omega), if_neg (by omega)]

theorem twiddle_fwd (m j : Nat) : twiddle m j .fwd = ⟨twrom (m - 8 + 2 * j), -twrom (m - 8 + 2 * j + 1)⟩ := rfl

theorem twiddle_inv (m j : Nat) : twiddle m j .inv = ⟨twrom (m - 8 + 2 * j), twrom (m - 8 + 2 * j + 1)⟩ := rfl

/-- The fitted components of the product with a ROM coefficient. -/
theorem cmul30_eq (dw : Nat) (w v : Cplx) : cmul30 dw w v
    = ⟨⟨sext dw (rnd (w.re * v.re - w.im * v.im) 30), sext dw (rnd (w.re * v.im + w.im * v.re) 30)⟩,
      !inRange dw (rnd (w.re * v.re - w.im * v.im) 30) || !inRange dw (rnd (w.re * v.im + w.im * v.re) 30)⟩ := rfl

/-- The negated most negative value is out of range and wraps to itself. -/
theorem sext_neg_min {dw : Nat} (hdw : 1 ≤ dw) :
    sext dw (-(-(2 ^ (dw - 1)))) = -(2 ^ (dw - 1)) ∧ inRange dw (-(-(2 ^ (dw - 1)))) = false := by
  obtain ⟨n, rfl⟩ : ∃ n, dw = n + 1 := ⟨dw - 1, by omega⟩
  have half_pos := pow2_pos n
  have double := pow2_succ n
  have residue : pow2 n % pow2 (n + 1) = pow2 n := Int.emod_eq_of_lt half_pos.le (by omega)
  rw [neg_neg, Nat.add_sub_cancel, ← pow2_eq]
  constructor
  · simp only [sext, Nat.add_sub_cancel, residue]
    rw [if_neg (lt_irrefl _)]
    omega
  · rw [Bool.eq_false_iff, Ne, inRange_iff]
    simp

/-- The twiddle 0 of every stage in the table is exactly 1. -/
theorem twiddle_zero {k : Nat} (hk : 3 ≤ k) (dir : Dir) : twiddle (2 ^ k) 0 dir = ⟨2 ^ 30, 0⟩ := by
  have size_ge : 2 ^ 3 ≤ 2 ^ k := Nat.pow_le_pow_right (by decide) hk
  have cosine := twrom_cos hk (show 0 < 2 ^ k / 2 by omega)
  have sine := twrom_sin hk (show 0 < 2 ^ k / 2 by omega)
  rw [Nat.zero_mul, show cosQ30 0 = 2 ^ 30 by decide +kernel] at cosine
  rw [Nat.zero_mul, show sinQ30 0 = 0 by decide +kernel] at sine
  cases dir with
  | fwd => rw [twiddle_fwd, cosine, sine, neg_zero]
  | inv => rw [twiddle_inv, cosine, sine]

/-- Rounding takes back a multiplication by the same power of two. -/
theorem rnd_two_pow_mul (v : Int) (n : Nat) : rnd (2 ^ n * v) n = v := by
  cases n with
  | zero => rw [pow_zero, one_mul, rnd_zero_bits]
  | succ n =>
    have lt_unit : (2 : Int) ^ n < 2 ^ (n + 1) := pow_lt_pow_right₀ one_lt_two n.lt_succ_self
    rw [rnd_succ_bits, add_comm, Int.add_mul_ediv_left _ _ (by positivity),
      Int.ediv_eq_zero_of_lt (by positivity) lt_unit, zero_add]

theorem cmul30_one {dw : Nat} (hdw : 1 ≤ dw) {v : Cplx} (re : inRange dw v.re = true) (im : inRange dw v.im = true) :
    cmul30 dw ⟨2 ^ 30, 0⟩ v = Calc.exact v := by
  have re_eq : rnd (2 ^ 30 * v.re - 0 * v.im) 30 = v.re := by rw [zero_mul, sub_zero, rnd_two_pow_mul]
  have im_eq : rnd (2 ^ 30 * v.im + 0 * v.re) 30 = v.im := by rw [zero_mul, add_zero, rnd_two_pow_mul]
  rw [cmul30_eq, re_eq, im_eq, sext_of_inRange hdw re, sext_of_inRange hdw im, re, im]
  rfl

end Sys2Proof.Machine
end

section
/-! PROOFS. A stage butterfly by butterfly: each works on its own two entries, as the stage found them
(40_transform.md R85). -/

namespace Sys2Proof.Machine

/-- The entries of a butterfly: whether `i` is one of them. -/
def Touches (m : Nat) (at_ : Nat × Nat) (i : Nat) : Prop := i = at_.1 + at_.2 ∨ i = at_.1 + at_.2 + m / 2

/-- No two of the butterflies share an entry. -/
def SeparateEntries (m : Nat) (bs : List (Nat × Nat)) : Prop :=
  bs.Pairwise (fun a c => ∀ i, Touches m a i → ¬ Touches m c i)

section
variable {dw m : Nat} {dir : Dir} {y y' : List Cplx}

theorem butterfly_getD_of_not_touches {at_ : Nat × Nat} {i : Nat} (h : ¬ Touches m at_ i) (z : Cplx) :
    (butterfly dw m dir y at_).val.getD i z = y.getD i z :=
  butterfly_getD_other dw m dir y at_.1 at_.2 i z (fun lo => h (.inl lo)) (fun hi => h (.inr hi))

/-- A butterfly depends on its own two entries alone. -/
theorem butterfly_congr {at_ : Nat × Nat} (len : y'.length = y.length)
    (same : ∀ i, Touches m at_ i → y'.getD i Cplx.zero = y.getD i Cplx.zero) :
    (butterfly dw m dir y' at_).ovf = (butterfly dw m dir y at_).ovf
      ∧ ∀ i, Touches m at_ i →
        (butterfly dw m dir y' at_).val.getD i Cplx.zero = (butterfly dw m dir y at_).val.getD i Cplx.zero := by
  have lo := same _ (.inl rfl)
  have hi := same _ (.inr rfl)
  refine ⟨by simp only [butterfly, lo, hi], fun i touched => ?_⟩
  simp only [butterfly, lo, hi, List.getD_eq_getElem?_getD, List.getElem?_set, List.length_set, len]
  rcases touched with rfl | rfl
  · split <;> simp
  · simp

/-- An entry of no butterfly of the list stays. -/
theorem loop_butterfly_getD_of_not_touches {bs : List (Nat × Nat)} {i : Nat} (h : ∀ at_ ∈ bs, ¬ Touches m at_ i) :
    (Calc.loop (butterfly dw m dir) y bs).val.getD i Cplx.zero = y.getD i Cplx.zero :=
  Calc.loop_keeps (fun w => w.getD i Cplx.zero = y.getD i Cplx.zero) _ _
    (fun _ _ mem kept => (butterfly_getD_of_not_touches (h _ mem) _).trans kept) y rfl

/-- In a loop over butterflies that share no entry, each works on its entries as they stood before the loop. -/
theorem loop_butterfly_of_separate {bs : List (Nat × Nat)} (separate : SeparateEntries m bs) :
    ((Calc.loop (butterfly dw m dir) y bs).ovf = true ↔ ∃ at_ ∈ bs, (butterfly dw m dir y at_).ovf = true)
      ∧ ∀ at_ ∈ bs, ∀ i, Touches m at_ i → (Calc.loop (butterfly dw m dir) y bs).val.getD i Cplx.zero
        = (butterfly dw m dir y at_).val.getD i Cplx.zero := by
  induction bs generalizing y with
  | nil => simp [Calc.loop]
  | cons first rest ih =>
    obtain ⟨apart, separate'⟩ := List.pairwise_cons.1 separate
    obtain ⟨restOvf, restVal⟩ := ih (y := (butterfly dw m dir y first).val) separate'
    have restSees {at_ : Nat × Nat} (mem : at_ ∈ rest) := butterfly_congr (dw := dw) (m := m) (dir := dir)
      (y := y) (butterfly_length dw m dir y first) fun i touched =>
        butterfly_getD_of_not_touches (fun both => apart at_ mem i both touched) Cplx.zero
    constructor
    · have restOvf' : (∃ at_ ∈ rest, (butterfly dw m dir (butterfly dw m dir y first).val at_).ovf = true)
          ↔ ∃ at_ ∈ rest, (butterfly dw m dir y at_).ovf = true :=
        exists_congr fun _ => and_congr_right fun mem => by rw [(restSees mem).1]
      rw [Calc.loop, Bool.or_eq_true, restOvf, restOvf', List.exists_mem_cons_iff]
    · intro at_ mem i touched
      rcases List.mem_cons.1 mem with rfl | mem
      · exact loop_butterfly_getD_of_not_touches fun other mem' => apart other mem' i touched
      · exact (restVal at_ mem i touched).trans ((restSees mem).2 i touched)

end

theorem mem_butterflies {l m : Nat} {at_ : Nat × Nat} :
    at_ ∈ butterflies l m ↔ ∃ b < l / m, ∃ j < m / 2, at_ = (b * m, j) := by
  simp [butterflies, eq_comm]

/-- In a stage of even size the butterflies of one block differ in j below half the size, and the blocks lie apart. -/
theorem butterflies_separate (l h : Nat) : SeparateEntries (2 * h) (butterflies l (2 * h)) := by
  have half : 2 * h / 2 = h := Nat.mul_div_cancel_left h two_pos
  rw [SeparateEntries, butterflies, List.pairwise_flatMap]
  constructor
  · intro b _
    refine List.pairwise_map.2 (List.pairwise_lt_range.imp_of_mem fun {j j'} hj hj' lt i touched touched' => ?_)
    simp only [Touches, List.mem_range, half] at *
    omega
  · refine List.pairwise_lt_range.imp fun {b b'} lt at_ mem at' mem' i touched touched' => ?_
    have blocks : b * (2 * h) + 2 * h ≤ b' * (2 * h) := by
      rw [← Nat.succ_mul]; exact Nat.mul_le_mul_right _ lt
    obtain ⟨j, hj, rfl⟩ := List.mem_map.1 mem
    obtain ⟨j', hj', rfl⟩ := List.mem_map.1 mem'
    simp only [Touches, List.mem_range, half] at *
    omega

/-- The value of each butterfly of a stage, and when the stage overflows. -/
theorem stage_of_even {dw l h : Nat} {dir : Dir} {y : List Cplx} :
    ((stage dw l dir y (2 * h)).ovf = true
        ↔ ∃ b < l / (2 * h), ∃ j < 2 * h / 2, (butterfly dw (2 * h) dir y (b * (2 * h), j)).ovf = true)
      ∧ ∀ b < l / (2 * h), ∀ j < 2 * h / 2, ∀ i, Touches (2 * h) (b * (2 * h), j) i →
        (stage dw l dir y (2 * h)).val.getD i Cplx.zero
          = (butterfly dw (2 * h) dir y (b * (2 * h), j)).val.getD i Cplx.zero := by
  obtain ⟨ovf, val⟩ := loop_butterfly_of_separate (dw := dw) (dir := dir) (y := y) (butterflies_separate l h)
  refine ⟨ovf.trans ⟨?_, ?_⟩, fun b hb j hj => val _ (mem_butterflies.2 ⟨b, hb, j, hj, rfl⟩)⟩
  · rintro ⟨_, mem, raised⟩
    obtain ⟨b, hb, j, hj, rfl⟩ := mem_butterflies.1 mem
    exact ⟨b, hb, j, hj, raised⟩
  · rintro ⟨b, hb, j, hj, raised⟩
    exact ⟨_, mem_butterflies.2 ⟨b, hb, j, hj, rfl⟩, raised⟩

/-- A butterfly overflows when its rotation, a sum or a difference does. -/
theorem butterfly_ovf_iff (dw m : Nat) (dir : Dir) (y : List Cplx) (b j : Nat) :
    let u := y.getD (b + j) Cplx.zero
    let t := rot dw m j dir (y.getD (b + j + m / 2) Cplx.zero)
    (butterfly dw m dir y (b, j)).ovf = true ↔ t.ovf = true
      ∨ inRange dw (u.re + t.val.re) = false ∨ inRange dw (u.im + t.val.im) = false
      ∨ inRange dw (u.re - t.val.re) = false ∨ inRange dw (u.im - t.val.im) = false := by
  simp [butterfly, addc, subc, addw, subw, or_assoc]

end Sys2Proof.Machine
end

section
/-! PROOFS. The statement of 40_transform.md R84 and R85 on rotations and stages. -/

namespace Sys2Proof.Machine

/-- Settles O59: the rotation size by size, a stage butterfly by butterfly, the transform by its definition. -/
theorem rotationsAndStages : Obligations.RotationsAndStages := by
  refine ⟨fun dw j dir v => ⟨rot_two dw j dir v, rot_four_zero dw dir v, rot_four_one_fwd dw v, rot_four_one_inv dw v⟩,
    fun dw x hdw => ?negate, fun dw m j v hm => ?product, fun dw k dir v hdw hk _ re im => ?one,
    fun p dir y k legal len hk stage_le => ?stage, fun p x _ => ⟨rfl, rfl⟩⟩
  case negate =>
    obtain ⟨wraps, out⟩ := sext_neg_min hdw
    rw [rot_four_one_fwd, rot_four_one_inv, wraps, out]
    exact ⟨rfl, rfl⟩
  case product =>
    simp only [rot_of_eight_le hm, twiddle_fwd, twiddle_inv, cmul30_eq, neg_mul, sub_neg_eq_add, ← sub_eq_add_neg,
      and_self]
  case one =>
    have size_ge : 2 ^ 3 ≤ 2 ^ k := Nat.pow_le_pow_right (by decide) hk
    rw [rot_of_eight_le size_ge, twiddle_zero hk]
    exact cmul30_one hdw re im
  case stage =>
    obtain ⟨n, rfl⟩ := Nat.exists_eq_add_of_le' hk
    intro m out u t
    have size_eq : m = 2 * 2 ^ n := pow_succ' 2 n
    obtain ⟨ovf, val⟩ := stage_of_even (dw := p.dw) (l := p.l) (h := 2 ^ n) (dir := dir) (y := y)
    rw [← size_eq] at ovf val
    refine ⟨(stage_length _ _ _ _ _).trans len, fun b hb j hj => ?_, ovf.trans ?_⟩
    · have inside : b * m + j + m / 2 < y.length := by
        have block_le : (b + 1) * m ≤ p.l := (Nat.mul_le_mul_right m hb).trans (Nat.div_mul_le_self _ _)
        rw [Nat.succ_mul] at block_le
        omega
      have two_le : 2 ≤ m := by rw [size_eq]; have := Nat.two_pow_pos n; omega
      exact ⟨(val b hb j hj _ (.inl rfl)).trans (butterfly_getD_lo _ _ _ _ _ _ _ two_le (by omega)),
        (val b hb j hj _ (.inr rfl)).trans (butterfly_getD_hi _ _ _ _ _ _ _ inside)⟩
    · simp only [butterfly_ovf_iff]
      rfl

end Sys2Proof.Machine
end

section
/-! PROOFS. The twist table (41_frequency.md R92). -/

namespace Sys2Proof.Machine

/-- N is twice L, and a power of two up to 2^13. -/
theorem legal_n {p : Params} (legal : p.legal = true) : p.n = 2 * p.l ∧ p.logn ≤ 13 := by
  obtain ⟨⟨logn_ge, logn_le⟩, -⟩ := p.legal_iff.1 legal
  refine ⟨?_, logn_le⟩
  rw [Params.n, Params.l, ← pow_succ', Nat.sub_add_cancel (by omega)]

/-- The ROM index of the twist j, in the first quadrant, and its angle. -/
theorem romAngle_twist {p : Params} (legal : p.legal = true) {j : Nat} (hj : j < p.l) :
    j * (8192 / p.n) ≤ 4096 ∧ romAngle (j * (8192 / p.n)) = Real.pi * j / p.n := by
  obtain ⟨n_eq, logn_le⟩ := legal_n legal
  obtain ⟨step, split⟩ : p.n ∣ 8192 := Nat.pow_dvd_pow 2 logn_le
  have n_pos : 0 < p.n := Nat.two_pow_pos p.logn
  have split' : (p.n : ℝ) * step = 8192 := by exact_mod_cast split.symm
  have quotient : 8192 / p.n = step := Nat.div_eq_of_eq_mul_right n_pos split
  rw [quotient]
  constructor
  · have := Nat.mul_le_mul_right step hj.le
    rw [n_eq, Nat.mul_assoc] at split
    omega
  · rw [romAngle, div_eq_div_iff (by norm_num) (by positivity)]
    push_cast
    linear_combination Real.pi * j * split'

/-- Settles O51: a twist is the fixed-point cosine and sine of its angle, which round as the real ones do; the tables of
N = 16 and N = 8 evaluate. -/
theorem twistsAreRoundedCosines : Obligations.TwistsAreRoundedCosines := by
  refine ⟨fun p legal j hj => ?_, by decide +kernel, by decide +kernel⟩
  obtain ⟨index_le, angle⟩ := romAngle_twist legal hj
  have cosine := cosQ30_roundsTo (index_le.trans (by decide))
  have sine := sinQ30_roundsTo (index_le.trans (by decide))
  rw [angle] at cosine sine
  exact ⟨cosine.eq_round, cosine.no_tie, sine.eq_round, sine.no_tie⟩

end Sys2Proof.Machine
end

section
/-! PROOFS. The conversions between ring elements and spectra (41_frequency.md R94, R95). -/

namespace Sys2Proof

/-- `each` over the indices below n overflows when the calculation of some index does. -/
theorem Calc.each_range_ovf {α : Type} (f : Nat → Calc α) (n : Nat) :
    (Calc.each f (List.range n)).ovf = true ↔ ∃ j < n, (f j).ovf = true := by
  rw [Calc.each_ovf, List.any_eq_true]
  simp only [List.mem_range]

end Sys2Proof

namespace Sys2Proof.Machine

theorem cmul30_ovf_iff (dw : Nat) (w v : Cplx) : (cmul30 dw w v).ovf = true
    ↔ inRange dw (rnd (w.re * v.re - w.im * v.im) 30) = false
      ∨ inRange dw (rnd (w.re * v.im + w.im * v.re) 30) = false := by
  simp [cmul30_eq]

section
variable (p : Params) (sh : Nat) (a : List Word)

theorem fold_val (j : Nat) : (fold p sh a j).val
    = ⟨sext p.dw (signed32 (a.getD j 0) * 2 ^ sh), sext p.dw (signed32 (a.getD (j + p.l) 0) * 2 ^ sh)⟩ := by
  rw [fold, pow2_eq, Calc.cplx_val, fit_val, fit_val]

theorem fold_ovf_iff (j : Nat) : (fold p sh a j).ovf = true
    ↔ inRange p.dw (signed32 (a.getD j 0) * 2 ^ sh) = false
      ∨ inRange p.dw (signed32 (a.getD (j + p.l) 0) * 2 ^ sh) = false := by
  simp [fold, pow2_eq]

/-- A pre-twisted entry is the fitted product of its twist and its fold. -/
theorem preTwist_val (j : Nat) :
    let x := (fold p sh a j).val
    (preTwist p sh a j).val = ⟨sext p.dw (rnd (twistCos p j * x.re - twistSin p j * x.im) 30),
      sext p.dw (rnd (twistCos p j * x.im + twistSin p j * x.re) 30)⟩ := by
  intro x
  rw [preTwist, Calc.andThen_val, cmul30_eq, twist]

theorem preTwist_ovf_iff (j : Nat) :
    let x := (fold p sh a j).val
    (preTwist p sh a j).ovf = true ↔ (fold p sh a j).ovf = true
      ∨ inRange p.dw (rnd (twistCos p j * x.re - twistSin p j * x.im) 30) = false
      ∨ inRange p.dw (rnd (twistCos p j * x.im + twistSin p j * x.re) 30) = false := by
  intro x
  rw [preTwist, Calc.andThen_ovf, Bool.or_eq_true, cmul30_ovf_iff, twist]

/-- A ring element's spectrum is the forward transform of its pre-twisted entries. -/
theorem r2f_val : (r2f p sh a).val
    = (fft p .fwd ((List.range p.l).map fun j => (preTwist p sh a j).val)).val := by
  rw [r2f, Calc.andThen_val, Calc.each_val]

theorem r2f_ovf_iff : (r2f p sh a).ovf = true
    ↔ (fft p .fwd ((List.range p.l).map fun j => (preTwist p sh a j).val)).ovf = true
      ∨ ∃ j < p.l, (preTwist p sh a j).ovf = true := by
  rw [r2f, Calc.andThen_ovf, Calc.each_val, Bool.or_eq_true, Calc.each_range_ovf, or_comm]

end

/-- An un-twisted entry is the fitted product with the conjugate of its twist. -/
theorem unTwist_eq (p : Params) (y : List Cplx) (j : Nat) :
    let z := y.getD j Cplx.zero
    unTwist p y j = Calc.cplx (fit p.dw (rnd (twistCos p j * z.re + twistSin p j * z.im) 30))
      (fit p.dw (rnd (twistCos p j * z.im - twistSin p j * z.re) 30)) := by
  intro z
  rw [unTwist, cmul30_eq]
  simp only [conj, twist, neg_mul, sub_neg_eq_add, ← sub_eq_add_neg]
  rfl

section
variable (p : Params) (tsh : Nat) (x : List Cplx)

/-- The torus words of the real parts, then those of the imaginary parts. -/
theorem f2r_val : (f2r p tsh x).val
    = (List.range p.l).map (fun j => toTorus tsh (unTwist p (fft p .inv x).val j).val.re)
      ++ (List.range p.l).map (fun j => toTorus tsh (unTwist p (fft p .inv x).val j).val.im) := by
  simp only [f2r, Calc.andThen_val, Calc.each_val, List.map_map, Function.comp_def]

theorem f2r_ovf_iff : (f2r p tsh x).ovf = true
    ↔ (fft p .inv x).ovf = true ∨ ∃ j < p.l, (unTwist p (fft p .inv x).val j).ovf = true := by
  rw [f2r, Calc.andThen_ovf, Bool.or_eq_true, Calc.each_range_ovf]

theorem f2r_length : (f2r p tsh x).val.length = 2 * p.l := by
  rw [f2r_val, List.length_append, List.length_map, List.length_map, List.length_range, two_mul]

section
variable {j : Nat} (hj : j < p.l)
include hj

theorem f2r_getD_re :
    (f2r p tsh x).val.getD j 0 = toTorus tsh (unTwist p (fft p .inv x).val j).val.re := by
  rw [f2r_val, List.getD_append _ _ _ _ (by simpa using hj)]
  simp [hj]

theorem f2r_getD_im :
    (f2r p tsh x).val.getD (j + p.l) 0 = toTorus tsh (unTwist p (fft p .inv x).val j).val.im := by
  rw [f2r_val, List.getD_append_right _ _ _ _ (by simp)]
  simp [hj]

end

end

/-- Settles O60: both conversions entry by entry, with the overflow of each entry's fits. -/
theorem conversionsTwistAndUntwist : Obligations.ConversionsTwistAndUntwist := by
  intro p legal dw c d
  refine ⟨fun sh a => ?forward, fun tsh x => ?inverse⟩
  case forward =>
    intro xr xi zr zi f
    have entry (j : Nat) : (preTwist p sh a j).val = ⟨sext dw (zr j), sext dw (zi j)⟩ := by
      rw [preTwist_val, fold_val]
    have fits (j : Nat) : (preTwist p sh a j).ovf = true ↔ inRange dw (xr j) = false ∨ inRange dw (xi j) = false
        ∨ inRange dw (zr j) = false ∨ inRange dw (zi j) = false :=
      (preTwist_ovf_iff p sh a j).trans (by rw [fold_ovf_iff, fold_val, or_assoc])
    rw [r2f_val, r2f_ovf_iff, funext entry]
    exact ⟨rfl, or_congr_right (exists_congr fun j => and_congr_right fun _ => fits j)⟩
  case inverse =>
    intro f y zr zi
    have entry (j : Nat) : unTwist p f.val j = Calc.cplx (fit dw (zr j)) (fit dw (zi j)) := unTwist_eq p f.val j
    refine ⟨(f2r_length p tsh x).trans (legal_n legal).1.symm, fun j hj => ⟨?re, ?im⟩, ?overflow⟩
    case re => rw [f2r_getD_re p tsh x hj, entry]; rfl
    case im => rw [f2r_getD_im p tsh x hj, entry]; rfl
    case overflow =>
      rw [f2r_ovf_iff]
      refine or_congr_right (exists_congr fun j => and_congr_right fun _ => ?_)
      rw [entry]
      simp only [Calc.cplx_ovf, fit_ovf, Bool.or_eq_true, Bool.not_eq_true']

end Sys2Proof.Machine
end

section
/-! PROOFS. The gadget decomposition: the digits' range and the error of recombining them (42_gsw.md R106, R107). -/

namespace Sys2Proof.Machine

/-! ### The fields of a word at the gadget's places -/

theorem gadget_cast (bgbit j : Nat) : (gadget bgbit j : Int) = 2 ^ (32 - (j + 1) * bgbit) := Nat.cast_pow 2 _

section
variable {n bgbit : Nat}

/-- Each gadget constant is a base below the one before it. -/
theorem gadget_mul_base (fits : (n + 1) * bgbit ≤ 32) : gadget bgbit n * 2 ^ bgbit = 2 ^ (32 - n * bgbit) := by
  have width : 32 - (n + 1) * bgbit + bgbit = 32 - n * bgbit := by rw [Nat.succ_mul] at fits ⊢; omega
  rw [gadget, ← pow_add, width]

/-- The first fields of a word, weighted by the gadget, and the bits below them make up the word. -/
theorem sum_fields_add_low (t : Nat) (fits : n * bgbit ≤ 32) :
    ∑ j ∈ Finset.range n, t / gadget bgbit j % 2 ^ bgbit * gadget bgbit j + t % 2 ^ (32 - n * bgbit) = t % 2 ^ 32 := by
  induction n with
  | zero => simp
  | succ n ih =>
    have next_field : t % 2 ^ (32 - n * bgbit)
        = t % gadget bgbit n + gadget bgbit n * (t / gadget bgbit n % 2 ^ bgbit) := by
      rw [← gadget_mul_base fits, Nat.mod_mul]
    have shorter : n * bgbit ≤ 32 := (Nat.mul_le_mul_right bgbit n.le_succ).trans fits
    rw [Finset.sum_range_succ, ← gadget, ← ih shorter, next_field]
    ring

end

/-- The part of OFFSET that recentres the digits is the gadget-weighted sum of half a base. -/
theorem halfDigits_eq_sum (bgbit n : Nat) :
    halfDigits bgbit n = ∑ j ∈ Finset.range n, 2 ^ (bgbit - 1) * gadget bgbit j := by
  induction n with
  | zero => rfl
  | succ n ih => rw [halfDigits, Finset.sum_range_succ, ih]

/-! ### The digits -/

/-- A digit is a field of BGBIT bits less half the base, so it lies in the balanced range. -/
theorem digit_bounds (ell : Nat) {bgbit : Nat} (hb : 1 ≤ bgbit) (a : Word) (j : Nat) :
    -(2 ^ (bgbit - 1)) ≤ digit ell bgbit a j ∧ digit ell bgbit a j ≤ 2 ^ (bgbit - 1) - 1 := by
  have base : (2 : Int) ^ bgbit = 2 * 2 ^ (bgbit - 1) := (mul_pow_sub_one (by omega) 2).symm
  have field_lt : ((offsetWord ell bgbit a / gadget bgbit j % 2 ^ bgbit : Nat) : Int) < 2 ^ bgbit := by
    exact_mod_cast Nat.mod_lt _ (Nat.two_pow_pos bgbit)
  rw [digit, pow2_eq, Int.ofNat_eq_natCast]
  constructor <;> linarith [Int.natCast_nonneg (offsetWord ell bgbit a / gadget bgbit j % 2 ^ bgbit)]

theorem offsetWord_lt (ell bgbit : Nat) (a : Word) : offsetWord ell bgbit a < 2 ^ 32 := Nat.mod_lt _ (by decide)

section
variable {ell bgbit : Nat} (fits : ell * bgbit ≤ 31) (a : Word)
include fits

/-- The digits recombine to the offset word without its discarded low bits and without the recentring. -/
theorem sum_digit_mul_gadget : ∑ j ∈ Finset.range ell, digit ell bgbit a j * (gadget bgbit j : Int)
    = offsetWord ell bgbit a - (offsetWord ell bgbit a % 2 ^ (32 - ell * bgbit) : Nat) - halfDigits bgbit ell := by
  have parts := sum_fields_add_low (offsetWord ell bgbit a) (Nat.le_succ_of_le fits)
  rw [Nat.mod_eq_of_lt (offsetWord_lt ell bgbit a)] at parts
  simp only [digit, sub_mul, Finset.sum_sub_distrib, pow2_eq, halfDigits_eq_sum, Int.ofNat_eq_natCast]
  zify at parts
  push_cast
  linarith

/-- Modulo 2^32 the recombination error is the discarded low bits less the rounding half step. -/
theorem sub_sum_digit_emod :
    ((a.toNat : Int) - ∑ j ∈ Finset.range ell, digit ell bgbit a j * (gadget bgbit j : Int)) % pow2 32
      = ((offsetWord ell bgbit a % 2 ^ (32 - ell * bgbit) : Nat) - 2 ^ (32 - ell * bgbit - 1)) % pow2 32 := by
  have offset : (offsetWord ell bgbit a : Int)
      = (a.toNat + (halfDigits bgbit ell + 2 ^ (32 - ell * bgbit - 1))) % 2 ^ 32 := by
    simp [offsetWord, digitOffset]
  rw [sum_digit_mul_gadget fits, pow2_eq]
  generalize offsetWord ell bgbit a % 2 ^ (32 - ell * bgbit) = low
  omega

end

/-! ### The recombination error -/

/-- A signed word read from its low 32 bits. -/
theorem signed32_low32 (v : Int) : signed32 (low32 v) = sext 32 v := sext_congr (low32_emod le_rfl v)

/-- e of R107 on the word a. -/
def recombineError (ell bgbit : Nat) (a : Word) : Int :=
  signed32 (low32 (a.toNat - ∑ j ∈ Finset.range ell, digit ell bgbit a j * 2 ^ (32 - (j + 1) * bgbit)))

/-- The low bits of a number less half their range lie within that half around 0. -/
theorem low_sub_half_bounds {width : Nat} (hw : width ≠ 0) (t : Nat) :
    -(2 ^ width) ≤ 2 * ((t % 2 ^ width : Nat) - 2 ^ (width - 1) : Int)
      ∧ 2 * ((t % 2 ^ width : Nat) - 2 ^ (width - 1) : Int) < 2 ^ width := by
  have range : (2 : Int) ^ width = 2 * 2 ^ (width - 1) := (mul_pow_sub_one hw 2).symm
  have low_lt : ((t % 2 ^ width : Nat) : Int) < 2 ^ width := by exact_mod_cast Nat.mod_lt t (Nat.two_pow_pos width)
  constructor <;> linarith [Int.natCast_nonneg (t % 2 ^ width)]

section
variable {ell bgbit : Nat} (fits : ell * bgbit ≤ 31) (a : Word)
include fits

/-- The error is the discarded low bits of the offset word less the rounding half step: it needs no reduction. -/
theorem recombineError_eq : recombineError ell bgbit a
    = (offsetWord ell bgbit a % 2 ^ (32 - ell * bgbit) : Nat) - 2 ^ (32 - ell * bgbit - 1) := by
  obtain ⟨lower, upper⟩ := low_sub_half_bounds (width := 32 - ell * bgbit) (by omega) (offsetWord ell bgbit a)
  have step_le : (2 : Int) ^ (32 - ell * bgbit) ≤ 2 ^ 32 := pow_le_pow_right₀ (by decide) (Nat.sub_le _ _)
  simp only [recombineError, ← gadget_cast]
  rw [signed32_low32, sext_congr (sub_sum_digit_emod fits a)]
  refine sext_of_inRange (by decide) ((inRange_iff _ _).2 ?_)
  rw [pow2_eq]
  constructor <;> omega

end

/-- Settles O57: the digits are fields less half the base; the error of recombining them is what the rounding
discards; both extremes evaluate. -/
theorem digitsRecombine : Obligations.DigitsRecombine := by
  refine ⟨fun ell bgbit a _ hb fits => ⟨fun j _ => digit_bounds ell hb a j, ?error⟩, by decide, by decide⟩
  have bounds := low_sub_half_bounds (width := 32 - ell * bgbit) (by omega) (offsetWord ell bgbit a)
  rw [← recombineError_eq fits a] at bounds
  exact bounds

end Sys2Proof.Machine
end

section
/-! PROOFS. NOP and the words of opcode 0x00 (43_extprod.md R122). -/

namespace Sys2Proof.Machine

open Sys2Proof.Laws

/-- NOP consults neither CFG, nor an identifier, nor the store (60_exceptions.md R127). -/
theorem check_nop (s : State) : check .nop s = none := by
  rw [check_eq_none]
  exact ⟨nofun, rfl, rfl, nofun⟩

/-- The completion of a command whose effect leaves the state alone: the completion effects only. -/
theorem finish_exact (s : State) : finish (Calc.exact s)
    = { s with busy := false, done := true, cmdCount := s.cmdCount + 1, curCmd := 0 } := by
  rw [finish, Calc.exact_val, Calc.exact_ovf, Bool.or_false]

/-- A nonzero unused field makes the word reserved (30_encoding.md R75). -/
theorem unlessReserved_eq_reserved {unused : List (BitVec 8)} (i : Instr) (nonzero : ∃ v ∈ unused, v ≠ 0) :
    unlessReserved unused i = .reserved :=
  if_neg (by simpa using nonzero)

/-- Opcode 0x00 uses none of its operand fields (30_encoding.md R73). -/
theorem decode_of_opcField_zero {w : Word} (opc : opcField w = 0x00) :
    decode w = unlessReserved [dField w, aField w, bField w] .nop := by
  rw [decode, opc]
  rfl

/-- A nonzero word of opcode 0x00 has an operand field that is not 0, because a word is made of its fields. -/
theorem exists_operand_ne_zero {w : Word} (opc : opcField w = 0x00) (nonzero : w ≠ 0) :
    ∃ v ∈ [dField w, aField w, bField w], v ≠ 0 := by
  by_contra! allZero
  obtain ⟨d, a, b⟩ : dField w = 0 ∧ aField w = 0 ∧ bField w = 0 := by simpa using allZero
  have fields := commandWord_fields w
  rw [opc, d, a, b] at fields
  exact nonzero fields.symm

/-- Settles O14: NOP passes its check in every state and its effect is none; a word of opcode 0x00 other than 0 has a
nonzero unused field. -/
theorem nopCompletes : Obligations.NopCompletes := by
  refine ⟨fun s => ?completes, by decide, fun w s opc nonzero => ?reserved⟩
  case completes =>
    rw [exec_of_check_eq_none (check_nop s)]
    exact congrArg Host.Outcome.next (finish_exact s)
  case reserved =>
    rw [checkWord, decode_of_opcField_zero opc, unlessReserved_eq_reserved .nop (exists_operand_ne_zero opc nonzero)]

end Sys2Proof.Machine
end

section
/-! PROOFS. The interrupt output (60_exceptions.md R134) and `cfg_legal` (R130). -/

namespace Sys2Proof.Machine

theorem getLsbD_statusWord_done (s : State) : s.statusWord.getLsbD 1 = s.done := by
  simp only [State.statusWord, BitVec.getLsbD_setWidth, BitVec.getLsbD_append]
  simp

theorem getLsbD_statusWord_err (s : State) : s.statusWord.getLsbD 2 = s.err := by
  simp only [State.statusWord, BitVec.getLsbD_setWidth, BitVec.getLsbD_append]
  simp

theorem getLsbD_irqEnWord (c : IrqEn) : c.word.getLsbD 0 = c.doneIe ∧ c.word.getLsbD 1 = c.errIe := by
  obtain ⟨doneIe, errIe⟩ := c
  cases doneIe <;> cases errIe <;> decide

/-- The interrupt output is read off the words of STATUS and IRQ_EN. -/
theorem irq_eq_of_words (s : State) : s.irq
    = ((s.statusWord.getLsbD 1 && s.irqEn.word.getLsbD 0) || (s.statusWord.getLsbD 2 && s.irqEn.word.getLsbD 1)) := by
  obtain ⟨doneIe, errIe⟩ := getLsbD_irqEnWord s.irqEn
  rw [getLsbD_statusWord_done, getLsbD_statusWord_err, doneIe, errIe, State.irq]

/-- Settles O43: the output is read off the two words, so equal words give equal outputs. -/
theorem interruptOutput : Obligations.InterruptOutput := by
  refine ⟨irq_eq_of_words, fun s t status irqEn => ?_, rfl⟩
  rw [irq_eq_of_words t, status, irqEn, ← irq_eq_of_words s]

/-- The six conditions of `cfg_legal` (60_exceptions.md R130). -/
theorem cfgLegal_iff (s : State) : s.cfgLegal = true ↔
    1 ≤ s.cfg.k.toNat ∧ s.cfg.k.toNat ≤ s.params.kMax ∧ 1 ≤ s.cfg.ell.toNat ∧ s.cfg.ell.toNat ≤ s.params.ellMax
      ∧ 1 ≤ s.cfg.bgbit.toNat ∧ s.cfg.ell.toNat * s.cfg.bgbit.toNat ≤ 31
      ∧ s.shift.tsh.toNat ≤ s.params.dw - 33 ∧ s.shift.dsh.toNat ≤ s.params.dw - 1 := by
  simp [State.cfgLegal, State.k, State.ell, State.bgbit, State.tsh, State.dsh, and_assoc]

/-- The exponent of a gadget constant in use lies between 1 and 31. -/
theorem gadget_bounds {ell bgbit j : Nat} (base : 1 ≤ bgbit) (fits : ell * bgbit ≤ 31) (hj : j < ell) :
    2 ≤ gadget bgbit j ∧ gadget bgbit j ≤ 2 ^ 31 := by
  have lower : 1 ≤ (j + 1) * bgbit := Nat.mul_pos j.succ_pos base
  have upper : (j + 1) * bgbit ≤ 31 := (Nat.mul_le_mul_right bgbit hj).trans fits
  exact ⟨Nat.le_self_pow (by omega) 2, Nat.pow_le_pow_right (by decide) (by omega)⟩

/-- A torus word scaled by `sh` fits in any width with room for 32 + `sh` bits. -/
theorem inRange_signed32_mul_two_pow {dw sh : Nat} (room : sh + 32 ≤ dw) (w : Word) :
    inRange dw (signed32 w * 2 ^ sh) = true := by
  have word : inRange 32 (signed32 w) = true := inRange_sext (by decide) _
  have scaled : (2 : Int) ^ 31 * 2 ^ sh ≤ 2 ^ (dw - 1) := by
    rw [← pow_add]
    exact pow_le_pow_right₀ (by decide) (by omega)
  have scale_pos : (0 : Int) < 2 ^ sh := by positivity
  simp only [inRange_iff, pow2_eq, Nat.reduceSub] at word ⊢
  obtain ⟨lower, upper⟩ := word
  have scaled_lower := mul_le_mul_of_nonneg_right lower scale_pos.le
  have scaled_upper := mul_lt_mul_of_pos_right upper scale_pos
  constructor <;> linarith

/-- Settles O13: the six conditions bound the gadget's exponents and leave room for the shifts. -/
theorem cfgLegalConditions : Obligations.CfgLegalConditions := by
  refine fun s => ⟨cfgLegal_iff s, fun legal cfgLegal => ?_⟩
  obtain ⟨-, -, -, -, base, fits, tsh, dsh⟩ := (cfgLegal_iff s).1 cfgLegal
  obtain ⟨dw_ge, -⟩ := legal_dw legal
  exact ⟨fun j hj => gadget_bounds base fits hj, inRange_signed32_mul_two_pow (by omega), by omega⟩

end Sys2Proof.Machine
end

section
/-! PROOFS. The checks report the first cause of failure in the order of the codes (60_exceptions.md R126, R127). -/

namespace Sys2Proof.Machine

theorem needsCfg_iff (i : Instr) : needsCfg i = true ↔ i ≠ .nop ∧ i ≠ .gswFree := by
  cases i <;> simp [needsCfg]

theorem badId_iff (i : Instr) (s : State) : badId i s = true ↔
    (∃ f ∈ i.freqOperands, s.params.fspace ≤ f.toNat) ∨ (∃ r ∈ i.ringOperands, s.params.rspace ≤ r.toNat)
      ∨ ∃ r ∈ i.runOperands, s.params.rspace ≤ r.toNat + s.ell - 1 := by
  simp [badId, or_assoc]

theorem stateAllows_eq_false_iff (i : Instr) (g : GswState) : stateAllows i g = false ↔
    (i = .gswAlloc ∧ g ≠ .free) ∨ ((i = .gswFree ∨ i = .gswClear ∨ i = .gswTof) ∧ g = .free)
      ∨ ((i = .gswAddg ∨ i = .gswFromf ∨ i = .extprod) ∧ g ≠ .ready) := by
  cases i <;> cases g <;> simp [stateAllows]

theorem needsShape_iff (i : Instr) : needsShape i = true ↔
    i = .gswClear ∨ i = .gswTof ∨ i = .gswAddg ∨ i = .gswFromf ∨ i = .extprod := by
  cases i <;> simp [needsShape]

/-- The codes in the order of the checks. -/
def ErrCode.inOrder : List ErrCode := [.illegalOpc, .rsvd, .cfg, .badId, .state, .shape]

/-- Whether the check behind a code fails for a decoded word, whatever the other checks say. -/
def checkFails (s : State) : Verdict → ErrCode → Bool
  | .illegal, c => c == .illegalOpc
  | .reserved, c => c == .rsvd
  | .command _, .illegalOpc => false
  | .command _, .rsvd => false
  | .command i, .cfg => needsCfg i && !s.cfgLegal
  | .command i, .badId => badId i s
  | .command i, .state => !stateAllows i s.gswState
  | .command i, .shape => needsShape i && !(s.shape == s.cfg)

/-- A search is a chain of conditionals. -/
theorem find?_cons_eq_ite {α : Type} (p : α → Bool) (a : α) (l : List α) :
    (a :: l).find? p = if p a then some a else l.find? p := by
  rw [List.find?_cons]
  cases p a <;> rfl

/-- The checks search the codes in order for the first that fails. -/
theorem checkWord_eq_find? (w : Word) (s : State) :
    checkWord w s = ErrCode.inOrder.find? (checkFails s (decode w)) := by
  rw [checkWord]
  cases decode w with
  | illegal => rfl
  | reserved => rfl
  | command i =>
    simp only [ErrCode.inOrder, find?_cons_eq_ite, List.find?_nil, checkFails, Bool.false_eq_true, if_false]
    rfl

/-- The causes of failure are the checks that fail. -/
theorem failureCause_iff (w : Word) (s : State) (c : ErrCode) :
    FailureCause w s c ↔ checkFails s (decode w) c = true := by
  cases decoded : decode w with
  | illegal => cases c <;> simp [FailureCause, checkFails, decoded]
  | reserved => cases c <;> simp [FailureCause, checkFails, decoded]
  | command i =>
    cases c with
    | illegalOpc => simp [FailureCause, checkFails, decoded]
    | rsvd => simp [FailureCause, checkFails, decoded]
    | cfg => simp [FailureCause, checkFails, decoded, needsCfg_iff, and_assoc]
    | badId => simp [FailureCause, checkFails, decoded, badId_iff]
    | state => simp [FailureCause, checkFails, decoded, stateAllows_eq_false_iff]
    | shape => simp [FailureCause, checkFails, decoded, needsShape_iff]

theorem ErrCode.mem_inOrder (c : ErrCode) : c ∈ ErrCode.inOrder := by cases c <;> decide

theorem ErrCode.inOrder_sorted : ErrCode.inOrder.Pairwise (fun c d => c.bits.toNat < d.bits.toNat) := by decide

/-- The search ends at the least code it looks for, because the codes stand in rising order. -/
theorem ErrCode.find?_inOrder_eq_some_iff (p : ErrCode → Bool) (c : ErrCode) : ErrCode.inOrder.find? p = some c ↔
    p c = true ∧ ∀ d : ErrCode, d.bits.toNat < c.bits.toNat → ¬ p d = true := by
  have least {before after : List ErrCode} (parts : ErrCode.inOrder = before ++ c :: after) (d : ErrCode) :
      d ∈ before ↔ d.bits.toNat < c.bits.toNat := by
    have sorted := ErrCode.inOrder_sorted
    have listed := d.mem_inOrder
    rw [parts] at sorted listed
    obtain ⟨-, from_c, below⟩ := List.pairwise_append.1 sorted
    obtain ⟨above, -⟩ := List.pairwise_cons.1 from_c
    refine ⟨fun h => below d h c List.mem_cons_self, fun less => ?_⟩
    rcases List.mem_append.1 listed with h | h
    · exact h
    · rcases List.mem_cons.1 h with rfl | h
      · exact absurd less (lt_irrefl _)
      · exact absurd less (above d h).not_gt
  rw [List.find?_eq_some_iff_append]
  refine and_congr_right fun _ => ⟨?_, fun none_less => ?_⟩
  · rintro ⟨before, after, parts, skipped⟩ d less
    simpa using skipped d ((least parts d).2 less)
  · obtain ⟨before, after, parts⟩ := List.append_of_mem c.mem_inOrder
    exact ⟨before, after, parts, fun d h => by simpa using none_less d ((least parts d).1 h)⟩

/-- Settles O9: the checks are a search through the causes in the order of the codes. -/
theorem firstCauseIsReported : Obligations.FirstCauseIsReported := by
  intro w s
  simp only [checkWord_eq_find?, failureCause_iff]
  refine ⟨ErrCode.find?_inOrder_eq_some_iff _, ?_⟩
  simp only [List.find?_eq_none, ErrCode.mem_inOrder, forall_const]

end Sys2Proof.Machine
end

section
/-! PROOFS. The issue procedure and the error record (60_exceptions.md R128, R129). -/

namespace Sys2Proof.Machine

theorem checkWord_of_decode {w : Word} {i : Instr} (decoded : decode w = .command i) (s : State) :
    checkWord w s = check i s := by
  rw [checkWord, decoded]

/-- A word that fails its checks does nothing but its report. -/
theorem runWord_of_checkWord_eq_some {w : Word} {s : State} {c : ErrCode} (fails : checkWord w s = some c) :
    runWord w s = .next (fail c s) := by
  obtain ⟨t, runs⟩ := runWord_next w s
  rcases runWord_cases w s t runs with ⟨d, fails', rfl⟩ | ⟨i, decoded, passes, -⟩
  · obtain rfl : c = d := Option.some.inj (fails.symm.trans fails')
    exact runs
  · rw [checkWord_of_decode decoded, passes] at fails
    cases fails

/-- A word that passes its checks completes the command it decodes to. -/
theorem runWord_of_checkWord_eq_none {w : Word} {s t : State} (passes : checkWord w s = none)
    (runs : runWord w s = .next t) : ∃ i, t = finish (effect i s) := by
  rcases runWord_cases w s t runs with ⟨c, fails, -⟩ | ⟨i, -, -, completed⟩
  · rw [passes] at fails
    cases fails
  · exact ⟨i, completed⟩

/-- The check at issue sees what the check before the write to CMD sees. -/
theorem checkWord_issued (w : Word) (s : State) (rest : List Event) :
    checkWord w (setLastCmd w (respond none (setAgenda rest s))) = checkWord w s :=
  checkWord_congr w _ _ rfl rfl rfl rfl rfl

section
variable {s : State} {w : Word} {rest : List Event} (legal : s.params.legal = true)
include legal

theorem step_write_cmd (next : s.agenda = .access (.write 0x020 w) :: rest) :
    step s = writeCmd w (respond none (setAgenda rest s)) := by
  rw [step_access legal next, hostAccess, busWrite_of_regAt (r := .cmd) rfl, writeReg]

theorem step_write_status (next : s.agenda = .access (.write 0x024 w) :: rest) :
    step s = .next (respond none (acknowledge w (setAgenda rest s))) := by
  rw [step_access legal next, hostAccess, busWrite_of_regAt (r := .status) rfl, writeReg]

end

theorem writeCmd_of_busy {s : State} (w : Word) (busy : s.busy = true) : writeCmd w s = .next (overrun s) :=
  if_pos busy

theorem writeCmd_of_fails {s : State} {w : Word} {c : ErrCode} (idle : s.busy = false)
    (fails : checkWord w (setLastCmd w s) = some c) : writeCmd w s = .next (fail c (setLastCmd w s)) := by
  simp [writeCmd, idle, issue, fails, runWord_of_checkWord_eq_some fails]

theorem writeCmd_of_passes {s : State} {w : Word} (idle : s.busy = false)
    (passes : checkWord w (setLastCmd w s) = none) : writeCmd w s = .next (accept w (setLastCmd w s)) := by
  simp [writeCmd, idle, issue, passes]

/-- Settles O7: the three branches of a write to CMD, and the read of LAST_CMD. -/
theorem cmdWriteIssues : Obligations.CmdWriteIssues := by
  refine ⟨fun s w rest legal next => ⟨fun busy => ?dropped, fun idle c fails => ?failed, fun idle passes => ?accepted⟩,
    readValue_of_regAt (r := .cmd) rfl, rfl⟩
  case dropped =>
    exact (step_write_cmd legal next).trans (writeCmd_of_busy w busy)
  case failed =>
    exact (step_write_cmd legal next).trans (writeCmd_of_fails idle ((checkWord_issued w s rest).trans fails))
  case accepted =>
    exact (step_write_cmd legal next).trans (writeCmd_of_passes idle ((checkWord_issued w s rest).trans passes))

/-- Settles O12: `fail` keeps a code that is recorded, the write to STATUS clears it, a completion leaves it, and no
check reads it. -/
theorem firstErrorIsKept : Obligations.FirstErrorIsKept := by
  refine ⟨fun s t w c fails runs => ?fails, fun s w rest legal next ackErr => ?acknowledges,
    fun s t w passes runs => ?succeeds, fun s w e c => checkWord_congr w _ _ rfl rfl rfl rfl rfl⟩
  case fails =>
    obtain rfl : fail c s = t := Host.Outcome.next.inj ((runWord_of_checkWord_eq_some fails).symm.trans runs)
    exact ⟨rfl, fun clear => by simp [clear], fun recorded => by simp [recorded]⟩
  case acknowledges =>
    exact ⟨_, step_write_status legal next, by simp [ackErr], by simp [ackErr]⟩
  case succeeds =>
    obtain ⟨i, rfl⟩ := runWord_of_checkWord_eq_none passes runs
    have completed := completed_finish_effect i s
    exact ⟨completed.err, completed.errCode⟩

end Sys2Proof.Machine
end

section
/-! PROOFS. The effect of a reset on the registers (70_reset_and_hazards.md R145, R146; 10_state.md R47). -/

namespace Sys2Proof.Machine

/-- With a reset at the head of the agenda the step is that reset, whether or not a command is in flight. -/
theorem step_reset {s : State} {rest : List Event} (legal : s.params.legal = true)
    (next : s.agenda = .reset :: rest) : step s = .next (applyReset (setAgenda rest s)) := by
  simp [step, nextMove, legal, next, handle]

section
variable (s : State)

/-! The words of the registers made of fields, after a reset in any state (10_state.md R47). -/

theorem applyReset_statusWord : (applyReset s).statusWord = 0 := by
  simp [applyReset_eq, State.afterReset, State.statusWord, errCodeBits, GswState.bits]

theorem applyReset_cfg_word : (applyReset s).cfg.word = 0x00080101 := by
  simp [applyReset_eq, State.afterReset, Cfg.word]

theorem applyReset_shift_word : (applyReset s).shift.word = 0x00202000 := by
  simp [applyReset_eq, State.afterReset, Shift.word]

theorem applyReset_shape_word : (applyReset s).shape.word = 0 := Cfg.word_zero

theorem applyReset_irqEn_word : (applyReset s).irqEn.word = 0 := by
  simp [applyReset_eq, State.afterReset, IrqEn.word]

/-- STATUS is 0 after a reset, so nothing raises the interrupt output. -/
theorem applyReset_irq : (applyReset s).irq = false := by
  simp [irq_eq_of_words, applyReset_statusWord]

end

/-- Settles O44: the step is `applyReset`, which takes from the old state the parameters and the later events only. -/
theorem resetSetsEveryRegister : Obligations.ResetSetsEveryRegister := by
  intro s rest legal next
  exact ⟨_, step_reset legal next, rfl, applyReset_statusWord _, rfl, rfl, applyReset_cfg_word _,
    applyReset_shift_word _, rfl, applyReset_shape_word _, rfl, rfl, applyReset_irqEn_word _, applyReset_irq _, rfl, rfl⟩

end Sys2Proof.Machine
end

section
/-! PROOFS. Decoding and encoding of command words (30_encoding.md R70 to R75). -/

namespace Sys2Proof

open Sys2Proof.Laws

/-- The verdict of the fields a command leaves unused: accepted when all are 0 (30_encoding.md R75). -/
theorem unlessReserved_eq_command_iff {unused : List (BitVec 8)} {i j : Instr} :
    unlessReserved unused i = .command j ↔ (∀ v ∈ unused, v = 0) ∧ i = j := by
  have all_iff : (unused.all fun v => v == 0#8) = true ↔ ∀ v ∈ unused, v = 0 := by simp
  rw [unlessReserved, ← all_iff]
  split
  · next accepted => simp only [accepted, true_and, Verdict.command.injEq]
  · next refused => simp only [refused, false_and, reduceCtorEq]

theorem unlessReserved_eq_reserved_iff {unused : List (BitVec 8)} {i : Instr} :
    unlessReserved unused i = .reserved ↔ ∃ v ∈ unused, v ≠ 0 := by
  simp [unlessReserved]

theorem unlessReserved_ne_illegal {unused : List (BitVec 8)} {i : Instr} : unlessReserved unused i ≠ .illegal := by
  rw [unlessReserved]
  split <;> nofun

section
variable (opc d a b : BitVec 8)

theorem opcField_commandWord : opcField (commandWord opc d a b) = opc := (fields_commandWord opc d a b).opc
theorem dField_commandWord : dField (commandWord opc d a b) = d := (fields_commandWord opc d a b).d
theorem aField_commandWord : aField (commandWord opc d a b) = a := (fields_commandWord opc d a b).a
theorem bField_commandWord : bField (commandWord opc d a b) = b := (fields_commandWord opc d a b).b

end

/-- Settles O1: the word of each command has its opcode, its operands and 0 in the unused fields, so the opcode's row is
read and finds nothing reserved. -/
theorem decodeOfEncode : Obligations.DecodeOfEncode := by
  intro i
  cases i <;>
    simp only [encode, decode, opcField_commandWord, dField_commandWord, aField_commandWord, bField_commandWord] <;>
    rfl

/-- A word is rebuilt from its opcode as a number and its three other fields. -/
theorem commandWord_of_toNat {w : Word} {n : Nat} (opc : (opcField w).toNat = n) :
    commandWord (BitVec.ofNat 8 n) (dField w) (aField w) (bField w) = w := by
  rw [← opc, BitVec.ofNat_toNat, BitVec.setWidth_eq, commandWord_fields]

/-- Settles O2: a row of the opcode map that accepts the word has found 0 in the fields it does not use, so encoding
puts the same four fields together. -/
theorem encodeOfDecode : Obligations.EncodeOfDecode := by
  intro w i decoded
  unfold decode at decoded
  split at decoded
  case h_18 => cases decoded
  all_goals
    next opc =>
    obtain ⟨unused, rfl⟩ := unlessReserved_eq_command_iff.1 decoded
    simp only [List.mem_cons, List.not_mem_nil, or_false, forall_eq_or_imp, forall_eq] at unused
    refine Eq.trans ?_ (commandWord_of_toNat opc)
    simp [encode, unused]

/-- A word is illegal exactly when its opcode is outside the map (30_encoding.md R74). -/
theorem decode_eq_illegal_iff (w : Word) : decode w = .illegal ↔
    (0x09 ≤ (opcField w).toNat ∧ (opcField w).toNat ≤ 0x0F) ∨ (0x11 ≤ (opcField w).toNat ∧ (opcField w).toNat ≤ 0x1F)
      ∨ (0x26 ≤ (opcField w).toNat ∧ (opcField w).toNat ≤ 0x2F) ∨ 0x31 ≤ (opcField w).toNat := by
  unfold decode
  split
  case h_18 => simp only [imp_false, true_iff] at *; omega
  all_goals
    next opc => simp [opc, unlessReserved_ne_illegal]

/-- A word is reserved exactly when its opcode is listed and a field the opcode does not use is nonzero
(30_encoding.md R73, R75). -/
theorem decode_eq_reserved_iff (w : Word) : decode w = .reserved ↔
    ((opcField w).toNat ∈ [0x00, 0x20, 0x21, 0x22, 0x23, 0x24, 0x25, 0x30]
        ∧ (dField w ≠ 0 ∨ aField w ≠ 0 ∨ bField w ≠ 0))
      ∨ ((opcField w).toNat ∈ [0x01, 0x02, 0x06, 0x07] ∧ (aField w ≠ 0 ∨ bField w ≠ 0))
      ∨ ((opcField w).toNat ∈ [0x03, 0x04, 0x05, 0x10] ∧ bField w ≠ 0) := by
  unfold decode
  split
  case h_18 => simp only [imp_false, List.mem_cons, List.not_mem_nil, or_false, reduceCtorEq, false_iff] at *; omega
  all_goals
    next opc => simp [opc, unlessReserved_eq_reserved_iff]

/-- Settles O4: the nine words evaluate. -/
theorem sampleWordsDecode : Obligations.SampleWordsDecode := by
  unfold Obligations.SampleWordsDecode
  decide

end Sys2Proof

namespace Sys2Proof.Machine

/-- ERRCODE stands in bits [15:8] of STATUS (10_state.md R42). -/
theorem extractLsb'_statusWord_errCode (s : State) : s.statusWord.extractLsb' 8 8 = errCodeBits s.errCode := by
  apply BitVec.eq_of_getLsbD_eq
  intro i hi
  simp (disch := omega) only [State.statusWord, BitVec.getLsbD_extractLsb', BitVec.getLsbD_setWidth,
    BitVec.getLsbD_append, if_neg, if_pos, hi, decide_true, Bool.true_and]
  rw [decide_eq_true (by omega), Bool.true_and]
  congr 1
  omega

/-- A failure while ERR = 0 leaves its code's value in ERRCODE (60_exceptions.md R128). -/
theorem errCode_fail_of_clear {s : State} (c : ErrCode) (clear : s.err = false) :
    (fail c s).statusWord.extractLsb' 8 8 = c.bits := by
  simp [extractLsb'_statusWord_errCode, clear, errCodeBits]

theorem check_ne_illegalOpc (i : Instr) (s : State) : check i s ≠ some .illegalOpc := by
  unfold check
  repeat' split
  all_goals nofun

theorem check_ne_rsvd (i : Instr) (s : State) : check i s ≠ some .rsvd := by
  unfold check
  repeat' split
  all_goals nofun

theorem checkWord_eq_illegalOpc_iff (w : Word) (s : State) : checkWord w s = some .illegalOpc ↔ decode w = .illegal := by
  rw [checkWord]
  cases decode w <;> simp [check_ne_illegalOpc]

theorem checkWord_eq_rsvd_iff (w : Word) (s : State) : checkWord w s = some .rsvd ↔ decode w = .reserved := by
  rw [checkWord]
  cases decode w <;> simp [check_ne_rsvd]

/-- Settles O3: the two verdicts of decoding are the two codes, and a word that fails does nothing but its report. -/
theorem illegalAndReservedWords : Obligations.IllegalAndReservedWords := by
  refine ⟨fun w s => ⟨?illegal, ?reserved⟩, rfl, rfl, fun w s c fails clear => ?report⟩
  case illegal => exact (checkWord_eq_illegalOpc_iff w s).trans (decode_eq_illegal_iff w)
  case reserved => exact (checkWord_eq_rsvd_iff w s).trans (decode_eq_reserved_iff w)
  case report => exact ⟨_, runWord_of_checkWord_eq_some fails, errCode_fail_of_clear c clear⟩

/-- A command that fails its checks does nothing but its report. -/
theorem exec_of_check_eq_some {i : Instr} {s : State} {c : ErrCode} (fails : check i s = some c) :
    exec i s = .next (fail c s) := by
  rw [exec_eq_conclude, fails, conclude_some]

/-- Settles O11: the report of a failing check is `fail`. -/
theorem failureIsPrecise : Obligations.FailureIsPrecise := fun _ _ _ fails => exec_of_check_eq_some fails

/-! Which commands each check of R127 can fail, by opcode (60_exceptions.md R126). -/

section
variable {i : Instr}

theorem opcode_of_needsCfg (needs : needsCfg i = true) : (opcField (encode i)).toNat ∉ [0x00, 0x21] := by
  cases i <;> simp [needsCfg, encode, opcField_commandWord] at needs ⊢

theorem opcode_of_badId {s : State} (bad : badId i s = true) :
    (opcField (encode i)).toNat ∈ [1, 2, 3, 4, 5, 6, 7, 8, 0x10] := by
  cases i <;> simp [badId_iff, Instr.freqOperands, Instr.ringOperands, Instr.runOperands] at bad <;>
    simp [encode, opcField_commandWord]

theorem opcode_of_stateAllows_eq_false {g : GswState} (refused : stateAllows i g = false) :
    (opcField (encode i)).toNat ∈ [0x20, 0x21, 0x22, 0x23, 0x24, 0x25, 0x30] := by
  rcases (stateAllows_eq_false_iff i g).1 refused with ⟨rfl, -⟩ | ⟨rfl | rfl | rfl, -⟩ | ⟨rfl | rfl | rfl, -⟩ <;>
    simp [encode, opcField_commandWord]

theorem opcode_of_needsShape (needs : needsShape i = true) :
    (opcField (encode i)).toNat ∈ [0x22, 0x23, 0x24, 0x25, 0x30] := by
  rcases (needsShape_iff i).1 needs with rfl | rfl | rfl | rfl | rfl <;> simp [encode, opcField_commandWord]

end

/-- The check that a code reports has failed (60_exceptions.md R127). -/
theorem check_eq_some_cases {i : Instr} {s : State} {c : ErrCode} (fails : check i s = some c) :
    (c = .cfg ∧ needsCfg i = true) ∨ (c = .badId ∧ badId i s = true)
      ∨ (c = .state ∧ stateAllows i s.gswState = false) ∨ (c = .shape ∧ needsShape i = true) := by
  unfold check at fails
  split at fails
  · simp_all
  · split at fails
    · simp_all
    · split at fails
      · simp_all
      · split at fails <;> simp_all

/-- Settles O10: each code comes from its own check, which only the commands of its opcodes can fail. -/
theorem codesByCommand : Obligations.CodesByCommand := by
  intro i s c fails
  refine ⟨?_, _, exec_of_check_eq_some fails, errCode_fail_of_clear c⟩
  rcases check_eq_some_cases fails with ⟨rfl, cfg⟩ | ⟨rfl, bad⟩ | ⟨rfl, refused⟩ | ⟨rfl, shape⟩
  · exact .inl ⟨rfl, rfl, opcode_of_needsCfg cfg⟩
  · exact .inr (.inl ⟨rfl, rfl, opcode_of_badId bad⟩)
  · exact .inr (.inr (.inl ⟨rfl, rfl, opcode_of_stateAllows_eq_false refused⟩))
  · exact .inr (.inr (.inr ⟨rfl, rfl, opcode_of_needsShape shape⟩))

end Sys2Proof.Machine
end

section
/-! PROOFS. What one step is: an engine's move, a host access or a reset (20_memory.md R55, R60), and that it always
answers a next state (60_exceptions.md R125). -/

namespace Sys2Proof.Machine

theorem setAgenda_self {s : State} {rest : List Event} (agenda : s.agenda = rest) : setAgenda rest s = s := by
  subst agenda
  rfl

/-- The step of a legal configuration with a nonempty agenda is its first event. -/
theorem step_cons {s : State} {e : Event} {rest : List Event} (legal : s.params.legal = true)
    (next : s.agenda = e :: rest) : step s = handle e (setAgenda rest s) := by
  simp [step, nextMove, legal, next]

/-- With an empty agenda the engine moves. -/
theorem step_nil {s : State} (legal : s.params.legal = true) (empty : s.agenda = []) : step s = engineMove s := by
  simp [step, nextMove, legal, empty]

/-- Whether the engine moves next, and the agenda after its move. -/
def EngineNext (s : State) (rest : List Event) : Prop :=
  (s.agenda = [] ∧ rest = []) ∨ s.agenda = .engine :: rest

/-- Every step is a move of the engine, a host access or a reset. -/
theorem step_moves {s t : State} (h : step s = .next t) : s.params.legal = true ∧
    ((∃ rest, EngineNext s rest ∧ engineMove (setAgenda rest s) = .next t)
      ∨ (∃ a rest, s.agenda = .access a :: rest ∧ hostAccess a (setAgenda rest s) = .next t)
      ∨ ∃ rest, s.agenda = .reset :: rest ∧ t = applyReset (setAgenda rest s)) := by
  obtain ⟨legal, ⟨empty, moves⟩ | ⟨e, rest, next, handles⟩⟩ := step_cases s t h
  · exact ⟨legal, .inl ⟨[], .inl ⟨empty, rfl⟩, by rwa [setAgenda_self empty]⟩⟩
  · refine ⟨legal, ?_⟩
    cases e with
    | access a => exact .inr (.inl ⟨a, rest, next, handles⟩)
    | engine => exact .inl ⟨rest, .inr next, handles⟩
    | reset => exact .inr (.inr ⟨rest, next, (Host.Outcome.next.inj handles).symm⟩)

/-- With a command in flight the engine runs its word on the state with nothing in flight. -/
theorem engineMove_of_busy {s : State} (busy : s.busy = true) : engineMove s = runWord s.curCmd (withdraw s) :=
  if_pos busy

theorem runWord_of_decode {w : Word} {i : Instr} (decoded : decode w = .command i) (s : State) :
    runWord w s = exec i s := by
  rw [runWord, decoded]

/-- Settles O5: the engine's move is `runWord` of CUR_CMD on the withdrawn state, and the word decodes to the command. -/
theorem stepRunsCommandInFlight : Obligations.StepRunsCommandInFlight := by
  intro s i legal busy decoded
  refine ⟨fun empty => ?empty, fun rest next => ?engine⟩
  case empty => rw [step_nil legal empty, engineMove_of_busy busy, runWord_of_decode decoded, withdraw]
  case engine =>
    rw [step_cons legal next, handle, engineMove_of_busy (s := setAgenda rest s) busy]
    exact runWord_of_decode decoded _

theorem tableWord_32 (w : Nat) : tableWord 32 w = BitVec.ofNat 32 w := by
  apply BitVec.eq_of_toNat_eq
  rw [tableWord, BitVec.toNat_ofNat, BitVec.toNat_ofNat, Nat.mod_mod]

theorem decode_of_decodeTableWord {w : Nat} {i : Instr} (decoded : decodeTableWord 32 w = some i) :
    decode (tableWord 32 w) = .command i := by
  unfold decodeTableWord at decoded
  rw [tableWord]
  split at decoded
  · next verdict => rwa [verdict, Verdict.command.injEq, ← Option.some.injEq]
  · cases decoded
  · cases decoded

/-- Settles O6: the state of withFetchWord has the word in flight and the engine at the head of its agenda. -/
theorem stepRunsFetchedWord : Obligations.StepRunsFetchedWord := by
  intro s w i legal decoded
  have runs := (stepRunsCommandInFlight (s.withFetchWord 32 w) i legal rfl (decode_of_decodeTableWord decoded)).2
    s.agenda rfl
  rw [runs, State.withFetchWord, tableWord_32]
  rfl

theorem engineMove_next (s : State) : ∃ t, engineMove s = .next t := by
  unfold engineMove
  split
  · exact runWord_next _ _
  · exact ⟨_, rfl⟩

theorem writeCmd_next (w : Word) (s : State) : ∃ t, writeCmd w s = .next t := by
  unfold writeCmd issue
  split
  · exact ⟨_, rfl⟩
  · dsimp only
    split
    · exact runWord_next _ _
    · exact ⟨_, rfl⟩

theorem writeReg_next (r : Reg) (w : Word) (s : State) : ∃ t, writeReg r w s = .next t := by
  cases r
  case cmd => exact writeCmd_next w _
  all_goals exact ⟨_, rfl⟩

theorem busWrite_next (a : Nat) (w : Word) (s : State) : ∃ t, busWrite a w s = .next t := by
  unfold busWrite
  split
  · exact writeReg_next _ w s
  all_goals exact ⟨_, rfl⟩

theorem hostAccess_next (a : Access) (s : State) : ∃ t, hostAccess a s = .next t := by
  cases a with
  | read addr => exact ⟨_, rfl⟩
  | write addr data => exact busWrite_next _ _ s
  | narrow isWrite addr => exact ⟨_, rfl⟩

/-- Settles O8: the engine's move, every host access and a reset answer a next state. -/
theorem stepAlwaysAnswersNext : Obligations.StepAlwaysAnswersNext := by
  intro s legal
  cases agenda : s.agenda with
  | nil => rw [step_nil legal agenda]; exact engineMove_next s
  | cons e rest =>
    rw [step_cons legal agenda]
    cases e with
    | access a => exact hostAccess_next a _
    | engine => exact engineMove_next _
    | reset => exact ⟨_, rfl⟩

/-- Settles O35: a read answers the value at its offset, or a bus error where there is none. -/
theorem readsHaveNoSideEffect : Obligations.ReadsHaveNoSideEffect := fun _ _ _ legal next =>
  ⟨fun _ value => step_read_of_some legal next value, step_read_of_none legal next⟩

end Sys2Proof.Machine
end

section
/-! PROOFS. Invariants: the ways a move can end, said once, so that an invariant is one clause per way; and the three
invariants of the registers (60_exceptions.md R128, R131; 42_gsw.md R118). -/

namespace Sys2Proof.Machine

/-- Every host access keeps the predicate: one clause per way an access can end (`busRead_cases`, `busWrite_cases`,
`issue_cases`). -/
structure KeptByAccess (P : State → Prop) : Prop where
  respond : ∀ {s : State} (data : Option Word), P s → P (respond data s)
  busError : ∀ {s : State} (isWrite : Bool), P s → P (busError isWrite s)
  setCfg : ∀ {s : State} (c : Cfg), P s → s.busy = false → P (setCfg c s)
  setShift : ∀ {s : State} (c : Shift), P s → s.busy = false → P (setShift c s)
  setConst : ∀ {s : State} (w : Word), P s → s.busy = false → P (setConst w s)
  acknowledge : ∀ {s : State} (w : Word), P s → P (acknowledge w s)
  setIrqEn : ∀ {s : State} (c : IrqEn), P s → P (setIrqEn c s)
  overrun : ∀ {s : State}, P s → P (overrun s)
  refuse : ∀ {s : State} (w : Word) (c : ErrCode), P s → s.busy = false → P (fail c (setLastCmd w s))
  accept : ∀ {s : State} (w : Word), P s → s.busy = false → checkWord w (setLastCmd w s) = none →
    P (accept w (setLastCmd w s))
  store : ∀ {s : State} (a : Nat) (w : Word), P s → s.busy = false → s.params.legal = true →
    (s.params.isRing a || s.params.isFreq a) = true → P (s.storeWords a [heldWord s.params a w])

/-- Every step keeps the predicate: one clause per way a move can end (`step_moves`, `engineMove_cases`). -/
structure KeptByMoves (P : State → Prop) : Prop extends KeptByAccess P where
  setAgenda : ∀ {s : State} (rest : List Event), P s → P (setAgenda rest s)
  fails : ∀ {s : State} (c : ErrCode), P s → P (fail c (withdraw s))
  completes : ∀ {s : State} (i : Instr), P s → s.params.legal = true → check i (withdraw s) = none →
    P (finish (effect i (withdraw s)))
  reset : ∀ s : State, P (applyReset s)

/-- An offset that names RING or FREQ is a RING or FREQ word. -/
theorem memory_of_target {p : Params} {a : Nat} (named : target p a = .ring ∨ target p a = .freq) :
    (p.isRing a || p.isFreq a) = true := by
  cases ring : p.isRing a with
  | true => rfl
  | false =>
    cases freq : p.isFreq a with
    | true => rfl
    | false =>
      simp only [target, ring, freq] at named
      split at named
      · simp at named
      · split at named
        · split at named <;> simp at named
        · repeat' split at named
          all_goals simp_all

section
variable {P : State → Prop} {s t : State}

theorem hostAccess_keeps (kept : KeptByAccess P) (legal : s.params.legal = true) (holds : P s) {a : Access}
    (h : hostAccess a s = .next t) : P t := by
  cases a with
  | read addr =>
    obtain rfl := Host.Outcome.next.inj h
    rcases busRead_cases addr.toNat s with ⟨w, -, answers⟩ | ⟨-, refuses⟩
    · exact answers ▸ kept.respond _ holds
    · exact refuses ▸ kept.busError _ holds
  | narrow isWrite addr =>
    obtain rfl := Host.Outcome.next.inj h
    exact kept.busError _ holds
  | write addr data =>
    rcases busWrite_cases addr.toNat data s t h with rfl | ⟨idle, rfl | rfl | rfl⟩ | rfl | rfl | ⟨-, rfl⟩
      | ⟨idle, issues⟩ | ⟨idle, named, rfl⟩
    · exact kept.busError _ holds
    · exact kept.respond _ (kept.setCfg _ holds idle)
    · exact kept.respond _ (kept.setShift _ holds idle)
    · exact kept.respond _ (kept.setConst _ holds idle)
    · exact kept.respond _ (kept.acknowledge _ holds)
    · exact kept.respond _ (kept.setIrqEn _ holds)
    · exact kept.overrun (kept.respond _ holds)
    · rcases issue_cases _ _ _ issues with ⟨c, -, rfl⟩ | ⟨passes, rfl⟩
      · exact kept.refuse _ _ (kept.respond _ holds) idle
      · exact kept.accept _ (kept.respond _ holds) idle passes
    · exact kept.respond _ (kept.store _ _ holds idle legal (memory_of_target named))

theorem engineMove_keeps (kept : KeptByMoves P) (legal : s.params.legal = true) (holds : P s)
    (h : engineMove s = .next t) : P t := by
  rcases engineMove_cases s t h with ⟨-, rfl⟩ | ⟨-, c, -, rfl⟩ | ⟨-, i, -, passes, rfl⟩
  · exact holds
  · exact kept.fails c holds
  · exact kept.completes i holds legal passes

/-- What every way a move can end keeps, every step keeps. -/
theorem step_keeps (kept : KeptByMoves P) (holds : P s) (h : step s = .next t) : P t := by
  obtain ⟨legal, ⟨rest, -, moves⟩ | ⟨a, rest, -, accesses⟩ | ⟨rest, -, rfl⟩⟩ := step_moves h
  · exact engineMove_keeps (s := setAgenda rest s) kept legal (kept.setAgenda rest holds) moves
  · exact hostAccess_keeps (s := setAgenda rest s) kept.toKeptByAccess legal (kept.setAgenda rest holds) accesses
  · exact kept.reset _

end

theorem flightOk_afterReset (p : Params) (epoch : Nat) : (State.afterReset p epoch).flightOk := ⟨fun _ => rfl, nofun⟩

theorem storeOk_afterReset (p : Params) (epoch : Nat) : (State.afterReset p epoch).storeOk :=
  ⟨fun _ => rfl, fun constructed => absurd rfl constructed⟩

theorem memOk_afterReset (p : Params) (epoch : Nat) : (State.afterReset p epoch).memOk := ⟨.nil, nofun⟩

/-- Settles O32: after a reset memory is empty, nothing is in flight or recorded, and the store is FREE. -/
theorem invariantsHoldAtReset : Obligations.InvariantsHoldAtReset :=
  have holds (p : Params) (epoch : Nat) := And.intro (memOk_afterReset p epoch)
    (And.intro (flightOk_afterReset p epoch) (And.intro rfl (storeOk_afterReset p epoch)))
  ⟨holds Params.default 0, holds⟩

/-- With nothing in flight the protocol says CUR_CMD = 0. -/
theorem flightOk_of_idle {s : State} (idle : s.busy = false) (noCmd : s.curCmd = 0) : s.flightOk :=
  ⟨fun _ => noCmd, fun busy => absurd (idle.symm.trans busy) Bool.false_ne_true⟩

theorem keptByMoves_flightOk : KeptByMoves State.flightOk where
  respond _ h := h
  busError _ h := h
  setCfg _ h idle := flightOk_of_idle idle (h.1 idle)
  setShift _ h idle := flightOk_of_idle idle (h.1 idle)
  setConst _ h idle := flightOk_of_idle idle (h.1 idle)
  acknowledge _ h := h
  setIrqEn _ h := h
  overrun h := h
  refuse _ _ h idle := flightOk_of_idle idle (h.1 idle)
  accept w _ _ passes := ⟨nofun, fun _ => ⟨rfl, (checkWord_congr w _ _ rfl rfl rfl rfl rfl).trans passes⟩⟩
  store _ _ h idle _ _ := flightOk_of_idle idle (h.1 idle)
  setAgenda _ h := h
  fails _ _ := flightOk_of_idle rfl rfl
  completes _ _ _ _ := flightOk_of_idle rfl rfl
  reset _ := flightOk_of_idle rfl rfl

/-- Settles O29: a command is put in flight by `accept` alone, after its checks passed, and while it is there no access
writes what a check reads. -/
theorem stepKeepsFlightProtocol : Obligations.StepKeepsFlightProtocol := fun _ _ => step_keeps keptByMoves_flightOk

theorem errorOk_fail {s : State} (c : ErrCode) (h : s.errorOk) : (fail c s).errorOk := by
  cases recorded : s.err with
  | false => simp [State.errorOk, recorded]
  | true => simpa [State.errorOk, recorded] using h

theorem errorOk_acknowledge {s : State} (w : Word) (h : s.errorOk) : (acknowledge w s).errorOk := by
  cases clears : w.getLsbD 2 with
  | false =>
    rw [State.errorOk, acknowledge_err, acknowledge_errCode, clears, if_neg Bool.false_ne_true]
    exact (Bool.and_true s.err).trans h
  | true =>
    rw [State.errorOk, acknowledge_err, acknowledge_errCode, clears, if_pos rfl]
    exact Bool.and_false s.err

theorem keptByMoves_errorOk : KeptByMoves State.errorOk where
  respond _ h := h
  busError _ h := h
  setCfg _ h _ := h
  setShift _ h _ := h
  setConst _ h _ := h
  acknowledge w h := errorOk_acknowledge w h
  setIrqEn _ h := h
  overrun h := h
  refuse w c h _ := errorOk_fail (s := setLastCmd w _) c h
  accept _ h _ _ := h
  store _ _ h _ _ _ := h
  setAgenda _ h := h
  fails {s} c h := errorOk_fail (s := withdraw s) c h
  completes {s} i h _ _ := by
    have completed := completed_finish_effect i (withdraw s)
    rw [State.errorOk, completed.err, completed.errCode]
    exact h
  reset _ := rfl

/-- Settles O30: ERR and ERRCODE are written together, by a failure and by its acknowledgement. -/
theorem stepKeepsErrorRecord : Obligations.StepKeepsErrorRecord := fun _ _ => step_keeps keptByMoves_errorOk

theorem OnlyMem.sameStore {s t : State} (h : OnlyMem s t) : SameStore s t := by
  obtain ⟨m, rfl⟩ := h
  exact ⟨rfl, rfl⟩

/-- What a command does to GSW_STATE and GSW_SHAPE (42_gsw.md R108): the four lifecycle commands set them, no other
command touches them. -/
theorem effect_store_cases (i : Instr) (s : State) :
    (i = .gswAlloc ∧ (effect i s).val.gswState = .alloc ∧ (effect i s).val.shape = s.cfg)
      ∨ (i = .gswFree ∧ (effect i s).val.gswState = .free
          ∧ (effect i s).val.shape = { k := 0, ell := 0, bgbit := 0 })
      ∨ ((i = .gswClear ∨ i = .gswTof) ∧ (effect i s).val.gswState = .ready ∧ (effect i s).val.shape = s.shape)
      ∨ SameStore s (effect i s).val := by
  cases i
  case gswAlloc => exact .inl ⟨rfl, rfl, rfl⟩
  case gswFree => exact .inr (.inl ⟨rfl, rfl, rfl⟩)
  case gswClear => exact .inr (.inr (.inl ⟨.inl rfl, rfl, (onlyMem_clearStore s).sameStore.2⟩))
  case gswTof => exact .inr (.inr (.inl ⟨.inr rfl, rfl, (onlyMem_storeToFreq s).sameStore.2⟩))
  case decomp r a => exact .inr (.inr (.inr (onlyMem_decompose r.toNat a.toNat s).sameStore))
  case gswAddg => exact .inr (.inr (.inr (onlyMem_addGadget s).sameStore))
  case gswFromf => exact .inr (.inr (.inr (onlyMem_storeToRing s).sameStore))
  case extprod => exact .inr (.inr (.inr (onlyMem_externalProduct s).sameStore))
  all_goals exact .inr (.inr (.inr ⟨rfl, rfl⟩))

/-- A CFG that `cfg_legal` accepts has a shape that a store can be constructed in (60_exceptions.md R130). -/
theorem storeOk_of_cfgLegal {s t : State} (cfgLegal : s.cfgLegal = true) (params : t.params = s.params)
    (shape : t.shape = s.cfg) (constructed : t.gswState ≠ .free) : t.storeOk := by
  obtain ⟨k_ge, k_le, ell_ge, ell_le, bgbit_ge, fits, -, -⟩ := (cfgLegal_iff s).1 cfgLegal
  refine ⟨fun free => absurd free constructed, fun _ => ?_⟩
  rw [params, shape]
  exact ⟨k_ge, k_le, ell_ge, ell_le, bgbit_ge, fits⟩

/-- A store that stays constructed in its shape, or stays as it is, keeps a legal shape. -/
theorem storeOk_of_shape_eq {s t : State} (h : s.storeOk) (params : t.params = s.params) (shape : t.shape = s.shape)
    (state : t.gswState = .free ↔ s.gswState = .free) : t.storeOk := by
  rw [State.storeOk, params, shape, ne_eq, state]
  exact h

/-- GSW_CLEAR and GSW_TOF pass their checks only on a constructed store (42_gsw.md R108). -/
theorem constructed_of_check {i : Instr} {s : State} (lifecycle : i = .gswClear ∨ i = .gswTof)
    (passes : check i s = none) : s.gswState ≠ .free := by
  obtain ⟨-, -, allows, -⟩ := (check_eq_none i s).1 passes
  intro free
  rw [free] at allows
  rcases lifecycle with rfl | rfl <;> cases allows

theorem storeOk_finish_effect {i : Instr} {s : State} (h : s.storeOk) (passes : check i s = none) :
    (finish (effect i s)).storeOk := by
  have params := (completed_finish_effect i s).params
  rcases effect_store_cases i s with ⟨rfl, state, shape⟩ | ⟨rfl, state, shape⟩ | ⟨lifecycle, state, shape⟩ | ⟨state, shape⟩
  · obtain ⟨cfgLegal, -, -, -⟩ := (check_eq_none _ s).1 passes
    exact storeOk_of_cfgLegal (cfgLegal rfl) params shape nofun
  · exact ⟨fun _ => shape, fun constructed => absurd state constructed⟩
  · have constructed := constructed_of_check lifecycle passes
    exact storeOk_of_shape_eq h params shape (by rw [finish_gswState, state]; exact ⟨nofun, fun h => absurd h constructed⟩)
  · exact storeOk_of_shape_eq h params shape (by rw [finish_gswState, state])

theorem keptByMoves_storeOk : KeptByMoves State.storeOk where
  respond _ h := h
  busError _ h := h
  setCfg _ h _ := h
  setShift _ h _ := h
  setConst _ h _ := h
  acknowledge _ h := h
  setIrqEn _ h := h
  overrun h := h
  refuse _ _ h _ := h
  accept _ h _ _ := h
  store _ _ h _ _ _ := h
  setAgenda _ h := h
  fails _ h := h
  completes {s} _ h _ passes := storeOk_finish_effect (s := withdraw s) h passes
  reset s := storeOk_afterReset s.params (s.epoch + 1)

/-- Settles O31: only GSW_ALLOC and GSW_FREE write GSW_SHAPE, the first with a CFG that passed `cfg_legal`. -/
theorem stepKeepsStoreShape : Obligations.StepKeepsStoreShape := fun _ _ => step_keeps keptByMoves_storeOk

end Sys2Proof.Machine
end

section
/-! PROOFS. What moves GSW_STATE and CMD_COUNT (10_state.md R29, R44; 42_gsw.md R108). -/

namespace Sys2Proof.Machine

/-- No host access changes GSW_STATE or CMD_COUNT. -/
theorem hostAccess_keeps_gswState_cmdCount {s t : State} {a : Access} (legal : s.params.legal = true)
    (h : hostAccess a s = .next t) : t.gswState = s.gswState ∧ t.cmdCount = s.cmdCount :=
  hostAccess_keeps (P := fun u => u.gswState = s.gswState ∧ u.cmdCount = s.cmdCount)
    { respond := fun _ kept => kept
      busError := fun _ kept => kept
      setCfg := fun _ kept _ => kept
      setShift := fun _ kept _ => kept
      setConst := fun _ kept _ => kept
      acknowledge := fun _ kept => kept
      setIrqEn := fun _ kept => kept
      overrun := fun kept => kept
      refuse := fun _ _ kept _ => kept
      accept := fun _ kept _ _ => kept
      store := fun _ _ kept _ _ _ => kept }
    legal ⟨rfl, rfl⟩ h

/-- A command that passed its checks changes GSW_STATE as its row of R108's table says. -/
theorem gswState_transition {i : Instr} {s : State} (passes : check i s = none)
    (changes : (effect i s).val.gswState ≠ s.gswState) :
    (i = .gswAlloc ∧ s.gswState = .free ∧ (effect i s).val.gswState = .alloc)
      ∨ (i = .gswFree ∧ s.gswState ≠ .free ∧ (effect i s).val.gswState = .free)
      ∨ ((i = .gswClear ∨ i = .gswTof) ∧ s.gswState = .alloc ∧ (effect i s).val.gswState = .ready) := by
  obtain ⟨-, -, allows, -⟩ := (check_eq_none i s).1 passes
  rcases effect_store_cases i s with ⟨rfl, state, -⟩ | ⟨rfl, state, -⟩ | ⟨lifecycle, state, -⟩ | ⟨state, -⟩
  · exact .inl ⟨rfl, beq_iff_eq.1 allows, state⟩
  · exact .inr (.inl ⟨rfl, fun free => changes (state.trans free.symm), state⟩)
  · refine .inr (.inr ⟨lifecycle, ?_, state⟩)
    have constructed := constructed_of_check lifecycle passes
    cases before : s.gswState with
    | free => exact absurd before constructed
    | alloc => rfl
    | ready => exact absurd (state.trans before.symm) changes
  · exact absurd state changes

/-- Settles O33: no host access and no failing command changes GSW_STATE, and a completing one does as R108 says. -/
theorem gswStateTransitions : Obligations.GswStateTransitions := by
  intro s t h changes
  obtain ⟨legal, ⟨rest, -, moves⟩ | ⟨a, rest, -, accesses⟩ | ⟨rest, next, -⟩⟩ := step_moves h
  · rcases engineMove_cases _ _ moves with ⟨-, rfl⟩ | ⟨-, c, -, rfl⟩ | ⟨busy, i, decoded, passes, rfl⟩
    · exact absurd rfl changes
    · exact absurd rfl changes
    · exact .inr ⟨busy, i, decoded, gswState_transition passes changes⟩
  · exact absurd (hostAccess_keeps_gswState_cmdCount (s := setAgenda rest s) legal accesses).1 changes
  · exact .inl ⟨rest, next⟩

/-- The checks at completion see what the checks before the engine's move see. -/
theorem checkWord_withdrawn (w : Word) (s : State) (rest : List Event) :
    checkWord w (withdraw (setAgenda rest s)) = checkWord w s :=
  checkWord_congr w _ _ rfl rfl rfl rfl rfl

/-- The engine adds 1 to CMD_COUNT when a command in flight passes its checks, and leaves it otherwise. -/
theorem cmdCount_engineMove {s t : State} {rest : List Event} (h : engineMove (setAgenda rest s) = .next t) :
    (s.busy = true → checkWord s.curCmd s = none → t.cmdCount = s.cmdCount + 1)
      ∧ (s.busy = false ∨ checkWord s.curCmd s ≠ none → t.cmdCount = s.cmdCount) := by
  rw [← checkWord_withdrawn s.curCmd s rest]
  rcases engineMove_cases _ _ h with ⟨idle, rfl⟩ | ⟨-, c, fails, rfl⟩ | ⟨busy, i, decoded, passes, rfl⟩
  · exact ⟨fun busy => absurd (idle.symm.trans busy) Bool.false_ne_true, fun _ => rfl⟩
  · exact ⟨fun _ passes => absurd (fails.symm.trans passes) nofun, fun _ => rfl⟩
  · refine ⟨fun _ _ => (completed_finish_effect i _).cmdCount, fun h => ?_⟩
    rcases h with idle | fails
    · exact absurd (idle.symm.trans busy) Bool.false_ne_true
    · exact absurd ((checkWord_of_decode decoded _).trans passes) fails

/-- Settles O46: CMD_COUNT moves with the engine alone, and a reset clears it. -/
theorem commandCountCountsSuccesses : Obligations.CommandCountCountsSuccesses := by
  refine ⟨readValue_of_regAt (r := .cmdCount) rfl, rfl, fun s t h => ?_⟩
  obtain ⟨legal, ⟨rest, next, moves⟩ | ⟨a, rest, next, accesses⟩ | ⟨rest, next, rfl⟩⟩ := step_moves h
  · obtain ⟨counts, keeps⟩ := cmdCount_engineMove moves
    refine ⟨?_, fun _ busy passes => ?_, ?_, fun _ => keeps⟩
    · rintro ⟨_, next'⟩; rcases next with ⟨next, -⟩ | next <;> cases next.symm.trans next'
    · rw [counts busy passes, BitVec.toNat_add]; rfl
    · rintro ⟨_, _, next'⟩; rcases next with ⟨next, -⟩ | next <;> cases next.symm.trans next'
  · have keeps := (hostAccess_keeps_gswState_cmdCount (s := setAgenda rest s) legal accesses).2
    have notEngine : ¬ (s.agenda = [] ∨ ∃ rest, s.agenda = .engine :: rest) := by simp [next]
    exact ⟨fun ⟨_, next'⟩ => (by cases next.symm.trans next'), fun engine => absurd engine notEngine, fun _ => keeps,
      fun engine => absurd engine notEngine⟩
  · have notEngine : ¬ (s.agenda = [] ∨ ∃ rest, s.agenda = .engine :: rest) := by simp [next]
    exact ⟨fun _ => rfl, fun engine => absurd engine notEngine, fun ⟨_, _, next'⟩ => (by cases next.symm.trans next'),
      fun engine => absurd engine notEngine⟩

end Sys2Proof.Machine
end

section
/-! PROOFS. STATUS bit by bit, and the write that clears its bits (10_state.md R42). -/

namespace Sys2Proof.Machine

section
variable (s : State)

theorem getLsbD_statusWord_busy : s.statusWord.getLsbD 0 = s.busy := by
  simp only [State.statusWord, BitVec.getLsbD_setWidth, BitVec.getLsbD_append]
  simp

theorem getLsbD_statusWord_ovf : s.statusWord.getLsbD 3 = s.ovf := by
  simp only [State.statusWord, BitVec.getLsbD_setWidth, BitVec.getLsbD_append]
  simp

theorem getLsbD_statusWord_cmdOvr : s.statusWord.getLsbD 4 = s.cmdOvr := by
  simp only [State.statusWord, BitVec.getLsbD_setWidth, BitVec.getLsbD_append]
  simp

theorem getLsbD_statusWord_busErr : s.statusWord.getLsbD 5 = s.busErr := by
  simp only [State.statusWord, BitVec.getLsbD_setWidth, BitVec.getLsbD_append]
  simp

theorem getLsbD_statusWord_gswState {i : Nat} (hi : i < 2) : s.statusWord.getLsbD (6 + i) = s.gswState.bits.getLsbD i := by
  simp (disch := omega) only [State.statusWord, BitVec.getLsbD_setWidth, BitVec.getLsbD_append, if_neg, if_pos,
    show decide (6 + i < 32) = true from decide_eq_true (by omega), Bool.true_and]
  congr 1
  omega

theorem getLsbD_statusWord_errCode {i : Nat} (hi : i < 8) :
    s.statusWord.getLsbD (8 + i) = (errCodeBits s.errCode).getLsbD i := by
  rw [← extractLsb'_statusWord_errCode, BitVec.getLsbD_extractLsb', decide_eq_true hi, Bool.true_and]

theorem extractLsb'_statusWord_gswState : s.statusWord.extractLsb' 6 2 = s.gswState.bits := by
  apply BitVec.eq_of_getLsbD_eq
  intro i hi
  rw [BitVec.getLsbD_extractLsb', decide_eq_true hi, Bool.true_and, getLsbD_statusWord_gswState s hi]

theorem extractLsb'_statusWord_high : s.statusWord.extractLsb' 16 16 = 0 := by
  apply BitVec.eq_of_getLsbD_eq
  intro i hi
  rw [BitVec.getLsbD_extractLsb', getLsbD_statusWord_of_le s (by omega), Bool.and_false]
  exact (BitVec.getLsbD_zero).symm

end

/-- The bits of STATUS that a write of w clears: bits [5:1] where w has a 1, and ERRCODE with ERR. -/
def clearMask (w : Word) : Word := (w &&& 0x0000003E) ||| (if w.getLsbD 2 then 0x0000FF00 else 0x00000000)

theorem getLsbD_clearMask (w : Word) (i : Nat) : (clearMask w).getLsbD i
    = (w.getLsbD i && (0x0000003E : Word).getLsbD i || w.getLsbD 2 && (0x0000FF00 : Word).getLsbD i) := by
  rw [clearMask, BitVec.getLsbD_or, BitVec.getLsbD_and]
  cases w.getLsbD 2 <;> simp

theorem getLsbD_errCodeMask {i : Nat} (hi : i < 8) : (0x0000003E : Word).getLsbD (8 + i) = false
    ∧ (0x0000FF00 : Word).getLsbD (8 + i) = true := by
  interval_cases i <;> decide

theorem errCodeBits_acknowledge (w : Word) (s : State) {i : Nat} :
    (errCodeBits (acknowledge w s).errCode).getLsbD i = ((errCodeBits s.errCode).getLsbD i && !w.getLsbD 2) := by
  rw [acknowledge_errCode]
  cases w.getLsbD 2 <;> simp [errCodeBits]

/-- The acknowledgement of w clears the bits of its mask and no other. -/
theorem statusWord_acknowledge (w : Word) (s : State) : (acknowledge w s).statusWord = s.statusWord &&& ~~~clearMask w := by
  apply BitVec.eq_of_getLsbD_eq
  intro i hi
  rw [BitVec.getLsbD_and, BitVec.getLsbD_not, getLsbD_clearMask, decide_eq_true hi, Bool.true_and]
  by_cases flag : i < 6
  · interval_cases i
    · rw [getLsbD_statusWord_busy, getLsbD_statusWord_busy]; simp
    · rw [getLsbD_statusWord_done, getLsbD_statusWord_done]; simp
    · rw [getLsbD_statusWord_err, getLsbD_statusWord_err]; simp
    · rw [getLsbD_statusWord_ovf, getLsbD_statusWord_ovf]; simp
    · rw [getLsbD_statusWord_cmdOvr, getLsbD_statusWord_cmdOvr]; simp
    · rw [getLsbD_statusWord_busErr, getLsbD_statusWord_busErr]; simp
  · by_cases state : i < 8
    · obtain ⟨j, rfl⟩ := Nat.exists_eq_add_of_le (not_lt.1 flag)
      have hj : j < 2 := by omega
      rw [getLsbD_statusWord_gswState _ hj, getLsbD_statusWord_gswState _ hj]
      interval_cases j <;> simp
    · by_cases code : i < 16
      · obtain ⟨j, rfl⟩ := Nat.exists_eq_add_of_le (not_lt.1 state)
        obtain ⟨noFlag, errCode⟩ := getLsbD_errCodeMask (i := j) (by omega)
        rw [getLsbD_statusWord_errCode _ (by omega), getLsbD_statusWord_errCode _ (by omega), errCodeBits_acknowledge,
          noFlag, errCode, Bool.and_false, Bool.false_or, Bool.and_true]
      · rw [getLsbD_statusWord_of_le _ (by omega), getLsbD_statusWord_of_le _ (by omega), Bool.false_and]

/-- Settles O40: the bits of STATUS at their places, and the acknowledgement under its mask. -/
theorem statusWriteClearsBits : Obligations.StatusWriteClearsBits := by
  refine ⟨fun s => ⟨readValue_of_regAt (r := .status) rfl s, getLsbD_statusWord_busy s, getLsbD_statusWord_done s,
    getLsbD_statusWord_err s, getLsbD_statusWord_ovf s, getLsbD_statusWord_cmdOvr s, getLsbD_statusWord_busErr s,
    ?gswState, ?errCode, extractLsb'_statusWord_high s⟩, fun s rest w legal next => ?write⟩
  case gswState => rw [extractLsb'_statusWord_gswState]; cases s.gswState <;> rfl
  case errCode => rw [extractLsb'_statusWord_errCode]; cases s.errCode <;> rfl
  case write => exact ⟨_, step_write_status legal next, statusWord_acknowledge w (setAgenda rest s), rfl⟩

end Sys2Proof.Machine
end

section
/-! PROOFS. The report registers have no part in a command's result (20_memory.md R60). -/

namespace Sys2Proof

/-- A calculation with its value mapped. -/
def Calc.map {α β : Type} (g : α → β) (c : Calc α) : Calc β := ⟨g c.val, c.ovf⟩

@[simp] theorem Calc.map_val {α β : Type} (g : α → β) (c : Calc α) : (c.map g).val = g c.val := rfl
@[simp] theorem Calc.map_ovf {α β : Type} (g : α → β) (c : Calc α) : (c.map g).ovf = c.ovf := rfl

/-- A loop whose every step commutes with a map of the value commutes with it. -/
theorem Calc.loop_map {α β : Type} {g : β → β} {f : β → α → Calc β} (commutes : ∀ b x, f (g b) x = (f b x).map g)
    (b : β) (l : List α) : Calc.loop f (g b) l = (Calc.loop f b l).map g := by
  induction l generalizing b with
  | nil => rfl
  | cons x xs ih => simp [Calc.loop, commutes, ih, Calc.map]

theorem Calc.andThen_map {α : Type} {g : α → α} {f : α → Calc α} (commutes : ∀ a, f (g a) = (f a).map g)
    (c : Calc α) : (c.map g).andThen f = (c.andThen f).map g := by
  simp [Calc.andThen, commutes, Calc.map]

end Sys2Proof

namespace Sys2Proof.Machine

/-- The state with the report of another: the flags a command does not read, ERRCODE, IRQ_EN and the bus response. -/
def withReport (r s : State) : State :=
  { s with
    done := r.done
    err := r.err
    ovf := r.ovf
    cmdOvr := r.cmdOvr
    busErr := r.busErr
    errCode := r.errCode
    irqEn := r.irqEn
    resp := r.resp }

section
variable (r : State)

@[simp] theorem withReport_params (s : State) : (withReport r s).params = s.params := rfl
@[simp] theorem tsh_withReport (s : State) : (withReport r s).tsh = s.tsh := rfl
@[simp] theorem ell_withReport (s : State) : (withReport r s).ell = s.ell := rfl
@[simp] theorem bgbit_withReport (s : State) : (withReport r s).bgbit = s.bgbit := rfl

@[simp] theorem freqElem_withReport (f : Nat) (s : State) : (withReport r s).freqElem f = s.freqElem f := rfl

@[simp] theorem setFreq_withReport (f : Nat) (es : List Cplx) (s : State) :
    (withReport r s).setFreq f es = withReport r (s.setFreq f es) := rfl

/-- A fold whose every step commutes with the report commutes with it. -/
theorem foldl_withReport {α : Type} {f : State → α → State}
    (commutes : ∀ t x, f (withReport r t) x = withReport r (f t x)) (s : State) (l : List α) :
    l.foldl f (withReport r s) = withReport r (l.foldl f s) :=
  List.foldl_hom (withReport r) commutes

theorem decompose_withReport (d a : Nat) (s : State) :
    decompose d a (withReport r s) = withReport r (decompose d a s) :=
  foldl_withReport r (fun _ _ => rfl) s _

theorem decomposeAcc_withReport (s : State) : decomposeAcc (withReport r s) = withReport r (decomposeAcc s) :=
  foldl_withReport r (fun t _ => decompose_withReport r _ _ t) s _

theorem clearTmp_withReport (s : State) : clearTmp (withReport r s) = withReport r (clearTmp s) :=
  foldl_withReport r (fun _ _ => rfl) s _

theorem clearStore_withReport (s : State) : clearStore (withReport r s) = withReport r (clearStore s) :=
  foldl_withReport r (fun _ _ => rfl) s _

theorem addConst_withReport (f : Nat) (c : Word) (s : State) :
    addConst f c (withReport r s) = (addConst f c s).map (withReport r) := by
  simp only [addConst, freqElem_withReport, withReport_params, tsh_withReport, setFreq_withReport, Calc.map]

theorem addGadget_withReport (s : State) : addGadget (withReport r s) = (addGadget s).map (withReport r) := by
  refine Calc.loop_map (fun t x => ?_) s (diagonal s)
  simp only [addGadgetAt, addConst_withReport, withReport_params, ell_withReport, bgbit_withReport]

theorem storeToFreq_withReport (s : State) : storeToFreq (withReport r s) = (storeToFreq s).map (withReport r) :=
  Calc.loop_map (fun _ _ => rfl) s _

theorem externalProduct_withReport (s : State) :
    externalProduct (withReport r s) = (externalProduct s).map (withReport r) := by
  have digits (t : State) : transformDigits (withReport r t) = (transformDigits t).map (withReport r) :=
    Calc.loop_map (fun _ _ => rfl) t _
  have rows (t : State) : accumulateRows (withReport r t) = (accumulateRows t).map (withReport r) :=
    Calc.loop_map (fun _ _ => rfl) t _
  have back (t : State) : convertBack (withReport r t) = (convertBack t).map (withReport r) :=
    Calc.loop_map (fun _ _ => rfl) t _
  have clear (t : State) : Calc.exact (clearTmp (withReport r t)) = (Calc.exact (clearTmp t)).map (withReport r) := by
    rw [clearTmp_withReport]; rfl
  rw [externalProduct, externalProduct, decomposeAcc_withReport, digits, Calc.andThen_map clear, Calc.andThen_map rows,
    Calc.andThen_map back]

/-- No command reads the report registers, and its effect leaves them. -/
theorem effect_withReport (i : Instr) (s : State) : effect i (withReport r s) = (effect i s).map (withReport r) := by
  cases i
  case decomp d a => exact congrArg Calc.exact (decompose_withReport r d.toNat a.toNat s)
  case gswClear =>
    simp only [effect, clearStore_withReport]
    rfl
  case faddc f => exact addConst_withReport r f.toNat s.const s
  case gswAddg => exact addGadget_withReport r s
  case gswTof => simp only [effect, storeToFreq_withReport]; exact Calc.andThen_map (fun _ => rfl) _
  case gswFromf => exact Calc.loop_map (fun _ _ => rfl) s _
  case extprod => exact externalProduct_withReport r s
  all_goals rfl

end

theorem checkWord_withReport (w : Word) (r s : State) : checkWord w (withReport r s) = checkWord w s :=
  checkWord_congr w _ _ rfl rfl rfl rfl rfl

/-- A command word runs alike whatever the report registers hold, and ORs the same overflow into OVF. -/
theorem runWord_withReport {w : Word} {s t : State} (runs : runWord w s = .next t) : ∃ raised : Bool,
    t.ovf = (s.ovf || raised) ∧ ∀ r, ∃ t', runWord w (withReport r s) = .next t' ∧ t'.ovf = (r.ovf || raised)
      ∧ t' = withReport t' t := by
  rcases runWord_cases w s t runs with ⟨c, fails, rfl⟩ | ⟨i, decoded, passes, rfl⟩
  · refine ⟨false, (Bool.or_false _).symm, fun r => ⟨fail c (withReport r s), ?_, (Bool.or_false _).symm, rfl⟩⟩
    exact runWord_of_checkWord_eq_some ((checkWord_withReport w r s).trans fails)
  · obtain ⟨m, g, c, touched⟩ := effect_touches i s
    refine ⟨(effect i s).ovf, by rw [finish_ovf, touched], fun r => ⟨finish (effect i (withReport r s)), ?_, ?_, ?_⟩⟩
    · rw [runWord_of_decode decoded]
      exact exec_of_check_eq_none ((check_congr i s _ rfl rfl rfl rfl rfl).trans passes)
    · rw [effect_withReport]; rfl
    · rw [effect_withReport]; rfl

/-- While a command is in flight a host access changes nothing but the report registers (20_memory.md R69). -/
theorem hostAccess_of_busy {s t : State} {a : Access} (busy : s.busy = true) (h : hostAccess a s = .next t) :
    t = withReport t s := by
  have notIdle : s.busy ≠ false := by rw [busy]; nofun
  cases a with
  | read addr =>
    obtain rfl := Host.Outcome.next.inj h
    rcases busRead_cases addr.toNat s with ⟨w, -, answers⟩ | ⟨-, refuses⟩
    · rw [answers]; rfl
    · rw [refuses]; rfl
  | narrow isWrite addr =>
    obtain rfl := Host.Outcome.next.inj h
    rfl
  | write addr data =>
    rcases busWrite_cases addr.toNat data s t h with rfl | ⟨idle, -⟩ | rfl | rfl | ⟨-, rfl⟩ | ⟨idle, -⟩ | ⟨idle, -, -⟩
    · rfl
    · exact absurd idle notIdle
    · rfl
    · rfl
    · rfl
    · exact absurd idle notIdle
    · exact absurd idle notIdle

/-- Settles O45: an access while BUSY changes the report registers alone, which the command does not read. -/
theorem accessWhileBusyKeepsResult : Obligations.AccessWhileBusyKeepsResult := by
  intro s s1 t a busy accesses moves
  have reports := hostAccess_of_busy busy accesses
  have busy1 : s1.busy = true := by rw [reports]; exact busy
  rw [engineMove_of_busy busy] at moves
  obtain ⟨raised, ovf, alike⟩ := runWord_withReport moves
  obtain ⟨t1, runs1, ovf1, same1⟩ := alike s1
  obtain ⟨t0, runs0, ovf0, -⟩ := alike { s with ovf := false }
  have ovf0 : t0.ovf = raised := ovf0
  refine ⟨t1, t0, ?after, ?fresh, by rw [ovf0]; exact ovf, by rw [ovf0]; exact ovf1, ?_⟩
  case after =>
    rw [engineMove_of_busy busy1, reports]
    exact runs1
  case fresh => exact (engineMove_of_busy (s := { s with ovf := false }) busy).trans runs0
  rw [same1]
  exact ⟨rfl, rfl, rfl, rfl, rfl, rfl, rfl, rfl, rfl, rfl, rfl, rfl⟩

end Sys2Proof.Machine
end

section
/-! PROOFS. `fit`, and the range of rounded values (00_scope.md R13 to R15). -/

namespace Sys2Proof

theorem Calc.ext_iff {α : Type} {c d : Calc α} : c = d ↔ c.val = d.val ∧ c.ovf = d.ovf := by
  cases c
  cases d
  exact Calc.mk.injEq _ _ _ _ ▸ Iff.rfl

end Sys2Proof

namespace Sys2Proof.Machine

theorem inRange_eq_false_iff (dw : Nat) (v : Int) :
    inRange dw v = false ↔ v < -(2 ^ (dw - 1)) ∨ 2 ^ (dw - 1) ≤ v := by
  rw [← Bool.not_eq_true, inRange_iff, pow2_eq]
  omega

/-- Settles O48: `fit` is `sext`, which keeps the residue modulo 2^DW, gives a value of the width and leaves exactly the
values of the width. -/
theorem fitWrapsAndFlags : Obligations.FitWrapsAndFlags := by
  intro dw v hdw
  have wrapped := inRange_sext hdw v
  obtain ⟨lower, upper⟩ := (inRange_iff dw _).1 wrapped
  rw [pow2_eq] at lower upper
  refine ⟨?congruent, lower, upper, ?flag, ?unchanged⟩
  case congruent =>
    rw [fit_val, ← pow2_eq]
    exact Int.ModEq.dvd (sext_emod dw v)
  case flag => rw [fit_ovf, Bool.not_eq_true', inRange_eq_false_iff]
  case unchanged =>
    rw [fit_ovf, Bool.not_eq_false', fit_val]
    exact ⟨sext_of_inRange hdw, fun same => same ▸ wrapped⟩

/-- Rounding away bits keeps a value in range. -/
theorem inRange_rnd {dw : Nat} {v : Int} (h : inRange dw v = true) (n : Nat) : inRange dw (rnd v n) = true := by
  cases n with
  | zero => exact h
  | succ n =>
    have half_pos : (0 : Int) < 2 ^ n := by positivity
    have bound_pos := pow2_pos (dw - 1)
    rw [inRange_iff] at h ⊢
    obtain ⟨lower, upper⟩ := h
    rw [rnd_succ_bits, pow_succ]
    constructor
    · exact (Int.le_ediv_iff_mul_le (by omega)).2 (by nlinarith)
    · exact (Int.ediv_lt_iff_lt_mul (by omega)).2 (by nlinarith)

end Sys2Proof.Machine
end

section
/-! PROOFS. Transforms: their range, and the order of butterflies (40_transform.md R85). -/

namespace Sys2Proof.Machine

/-- Both components are DW-bit values. -/
def CplxInRange (dw : Nat) (z : Cplx) : Prop := inRange dw z.re = true ∧ inRange dw z.im = true

/-- Every entry of the list is a pair of DW-bit values. -/
def EntriesInRange (dw : Nat) (y : List Cplx) : Prop := ∀ z ∈ y, CplxInRange dw z

section
variable {dw : Nat} (hdw : 1 ≤ dw)
include hdw

theorem cplxInRange_zero : CplxInRange dw Cplx.zero := by
  have h := inRange_sext hdw 0
  rw [sext_zero] at h
  exact ⟨h, h⟩

/-- What is fitted component by component is in range. -/
theorem cplxInRange_fit (re im : Int) : CplxInRange dw (Calc.cplx (fit dw re) (fit dw im)).val :=
  ⟨inRange_sext hdw re, inRange_sext hdw im⟩

theorem cplxInRange_getD {y : List Cplx} (h : EntriesInRange dw y) (i : Nat) : CplxInRange dw (y.getD i Cplx.zero) := by
  rw [List.getD_eq_getElem?_getD]
  cases entry : y[i]? with
  | none => exact cplxInRange_zero hdw
  | some z => exact h z (List.mem_of_getElem? entry)

theorem entriesInRange_butterfly (m : Nat) (dir : Dir) {y : List Cplx} (h : EntriesInRange dw y) (at_ : Nat × Nat) :
    EntriesInRange dw (butterfly dw m dir y at_).val := by
  intro z mem
  rcases List.mem_or_eq_of_mem_set mem with mem | rfl
  · rcases List.mem_or_eq_of_mem_set mem with mem | rfl
    · exact h z mem
    · exact cplxInRange_fit hdw _ _
  · exact cplxInRange_fit hdw _ _

theorem entriesInRange_stage (l m : Nat) (dir : Dir) {y : List Cplx} (h : EntriesInRange dw y) :
    EntriesInRange dw (stage dw l dir y m).val :=
  Calc.loop_keeps (EntriesInRange dw) _ _ (fun _ at_ _ kept => entriesInRange_butterfly hdw m dir kept at_) y h

end

theorem length_permute (p : Params) (x : List Cplx) : (permute p x).length = p.l := by
  rw [permute, List.length_map, List.length_range]

/-- The stages of a transform, before the scale of the inverse (40_transform.md R85). -/
def network (p : Params) (dir : Dir) (x : List Cplx) : Calc (List Cplx) :=
  Calc.loop (stage p.dw p.l dir) (permute p x) (stageSizes p)

theorem fft_fwd (p : Params) (x : List Cplx) : fft p .fwd x = network p .fwd x := rfl

theorem fft_inv (p : Params) (x : List Cplx) :
    fft p .inv x = ⟨(network p .inv x).val.map (scaleInv p), (network p .inv x).ovf⟩ := rfl

section
variable {p : Params} (dir : Dir) (x : List Cplx)

theorem length_network : (network p dir x).val.length = p.l :=
  Calc.loop_keeps (fun y : List Cplx => y.length = p.l) _ _ (fun _ _ _ len => (stage_length _ _ _ _ _).trans len) _
    (length_permute p x)

theorem length_fft : (fft p dir x).val.length = p.l := by
  cases dir with
  | fwd => exact length_network .fwd x
  | inv => rw [fft_inv, List.length_map, length_network]

section
variable {x} (hdw : 1 ≤ p.dw) (h : EntriesInRange p.dw x)
include hdw h

theorem entriesInRange_network : EntriesInRange p.dw (network p dir x).val := by
  refine Calc.loop_keeps (EntriesInRange p.dw) _ _ (fun _ m _ kept => entriesInRange_stage hdw p.l m dir kept) _ ?_
  intro z mem
  obtain ⟨i, -, rfl⟩ := List.mem_map.1 mem
  exact cplxInRange_getD hdw h _

/-- Every write of a transform goes through `fit`, and the 1/L scale rounds away bits. -/
theorem entriesInRange_fft : EntriesInRange p.dw (fft p dir x).val := by
  have stages := entriesInRange_network dir hdw h
  cases dir with
  | fwd => exact stages
  | inv =>
    intro z mem
    obtain ⟨y, stageEntry, rfl⟩ := List.mem_map.1 mem
    obtain ⟨re, im⟩ := stages y stageEntry
    exact ⟨inRange_rnd re _, inRange_rnd im _⟩

end

end

theorem one_le_dw {p : Params} (legal : p.legal = true) : 1 ≤ p.dw := by
  obtain ⟨dw_ge, -⟩ := legal_dw legal
  omega

/-- Settles O53: the stages keep the length and fit what they write; the scale of the inverse keeps the range. -/
theorem transformStaysInRange : Obligations.TransformStaysInRange := fun _ dir x legal h =>
  ⟨length_fft dir x, entriesInRange_fft dir (one_le_dw legal) h⟩

/-- Two lists of butterflies without shared entries, one a permutation of the other, give the same result. -/
theorem loop_butterfly_perm {dw m : Nat} {dir : Dir} {y : List Cplx} {bs cs : List (Nat × Nat)}
    (separate : SeparateEntries m cs) (perm : bs.Perm cs) :
    Calc.loop (butterfly dw m dir) y bs = Calc.loop (butterfly dw m dir) y cs := by
  have apart_symm {a c : Nat × Nat} (h : ∀ i, Touches m a i → ¬ Touches m c i) (i : Nat) (hc : Touches m c i) :
      ¬ Touches m a i := fun ha => h i ha hc
  have separate' : SeparateEntries m bs := (perm.pairwise_iff apart_symm).2 separate
  obtain ⟨ovf, val⟩ := loop_butterfly_of_separate (dw := dw) (dir := dir) (y := y) separate
  obtain ⟨ovf', val'⟩ := loop_butterfly_of_separate (dw := dw) (dir := dir) (y := y) separate'
  have length (ds : List (Nat × Nat)) : (Calc.loop (butterfly dw m dir) y ds).val.length = y.length :=
    Calc.loop_keeps (fun z => z.length = y.length) _ _ (fun z at_ _ len => (butterfly_length _ _ _ z at_).trans len) y rfl
  have entry (i : Nat) : (Calc.loop (butterfly dw m dir) y bs).val.getD i Cplx.zero
      = (Calc.loop (butterfly dw m dir) y cs).val.getD i Cplx.zero := by
    by_cases touched : ∃ at_ ∈ cs, Touches m at_ i
    · obtain ⟨at_, mem, touches⟩ := touched
      exact (val' at_ (perm.mem_iff.2 mem) i touches).trans (val at_ mem i touches).symm
    · have untouched : ∀ at_ ∈ cs, ¬ Touches m at_ i := fun at_ mem touches => touched ⟨at_, mem, touches⟩
      exact (loop_butterfly_getD_of_not_touches fun at_ mem => untouched at_ (perm.mem_iff.1 mem)).trans
        (loop_butterfly_getD_of_not_touches untouched).symm
  refine Calc.ext_iff.2 ⟨List.ext_getElem ((length bs).trans (length cs).symm) fun i hi hi' => ?_, ?_⟩
  · have same := entry i
    rwa [List.getD_eq_getElem _ _ hi, List.getD_eq_getElem _ _ hi'] at same
  · rw [Bool.eq_iff_iff, ovf, ovf']
    exact exists_congr fun at_ => and_congr_left fun _ => perm.mem_iff

/-- Settles O52: the butterflies of a stage share no entry, so their order does not matter. -/
theorem butterflyOrderIsIrrelevant : Obligations.ButterflyOrderIsIrrelevant := by
  intro p dir y m bs _ _ size perm
  obtain ⟨i, -, rfl⟩ := List.mem_map.1 size
  have separate := butterflies_separate p.l (2 ^ i)
  rw [← pow_succ'] at separate
  exact loop_butterfly_perm separate perm

/-- Settles O54: the torus word scaled by at most DW - 33 is a DW-bit value, which `fit` leaves. -/
theorem torusFoldNeverOverflows : Obligations.TorusFoldNeverOverflows := by
  intro p sh a j legal small
  obtain ⟨dw_ge, -⟩ := legal_dw legal
  have fits (w : Word) := inRange_signed32_mul_two_pow (show sh + 32 ≤ p.dw by omega) w
  refine Calc.ext_iff.2 ⟨?_, ?_⟩
  · rw [fold_val, sext_of_inRange (one_le_dw legal) (fits _), sext_of_inRange (one_le_dw legal) (fits _)]
  · rw [Bool.eq_false_iff, Ne, fold_ovf_iff, fits, fits]
    simp

end Sys2Proof.Machine
end

section
/-! PROOFS. Elements of memory, and what a sequence of whole-element writes leaves and changes (10_state.md R23, R24;
20_memory.md R49). -/

namespace Sys2Proof.Machine

/-! ### Elements as regions of memory -/

/-- An element of memory. -/
inductive Elem where
  | ring (r : Nat)
  | freq (f : Nat)

/-- Whether an offset lies in the element. -/
def Elem.Covers (p : Params) : Elem → Nat → Prop
  | .ring r, a => InRing p r a
  | .freq f, a => InFreq p f a

/-- Whether the configuration has the element. -/
def Elem.Exists (p : Params) : Elem → Prop
  | .ring r => r < p.rspace
  | .freq f => f < p.fspace

section
variable {p : Params}

theorem inRing_ringAddr (r : Nat) {c : Nat} (hc : c < p.n) : InRing p r (p.ringAddr r c) := by
  rw [InRing, Params.ringAddr, Params.ringAddr]
  omega

theorem inFreq_freqAddr (f : Nat) {j q : Nat} (hj : j < p.l) (hq : q < 4) : InFreq p f (p.freqAddr f j q) := by
  rw [InFreq, Params.freqAddr, Params.freqAddr]
  omega

/-- Two blocks of the same size that share an offset are one block. -/
theorem eq_of_mem_blocks {base size r r' a : Nat} (lower : base + r * size ≤ a) (upper : a < base + r * size + size)
    (lower' : base + r' * size ≤ a) (upper' : a < base + r' * size + size) : r = r' := by
  have index {b : Nat} (lo : base + b * size ≤ a) (hi : a < base + b * size + size) : (a - base) / size = b :=
    Nat.div_eq_of_lt_le (by omega) (by rw [Nat.succ_mul]; omega)
  rw [← index lower upper, index lower' upper']

theorem inRing_unique {r r' a : Nat} (h : InRing p r a) (h' : InRing p r' a) : r = r' := by
  have block (b : Nat) : p.ringAddr b 0 = ringBase + b * (4 * p.n) := by rw [Params.ringAddr]; ring
  rw [InRing, block] at h h'
  exact eq_of_mem_blocks h.1 h.2 h'.1 h'.2

theorem inFreq_unique {f f' a : Nat} (h : InFreq p f a) (h' : InFreq p f' a) : f = f' := by
  have block (b : Nat) : p.freqAddr b 0 0 = freqBase + b * (16 * p.l) := by rw [Params.freqAddr]; ring
  rw [InFreq, block] at h h'
  exact eq_of_mem_blocks h.1 h.2 h'.1 h'.2

/-- RING lies below FREQ. -/
theorem not_inFreq_of_inRing (legal : p.legal = true) {r f a : Nat} (hr : r < p.rspace) (h : InRing p r a) :
    ¬ InFreq p f a := by
  obtain ⟨-, ring_le, -⟩ := legal_sizes legal
  have block_le : (r + 1) * p.n ≤ p.rspace * p.n := Nat.mul_le_mul_right _ hr
  obtain ⟨-, upper⟩ := h
  rintro ⟨lower, -⟩
  rw [Nat.succ_mul] at block_le
  rw [Params.ringAddr, ringBase] at upper
  rw [Params.freqAddr, freqBase] at lower
  omega

/-- An offset lies in one element at most. -/
theorem Elem.covers_unique (legal : p.legal = true) {e e' : Elem} {a : Nat} (he : e.Exists p) (he' : e'.Exists p)
    (h : e.Covers p a) (h' : e'.Covers p a) : e = e' := by
  cases e with
  | ring r =>
    cases e' with
    | ring r' => exact congrArg Elem.ring (inRing_unique h h')
    | freq f => exact absurd h' (not_inFreq_of_inRing legal he h)
  | freq f =>
    cases e' with
    | ring r => exact absurd h (not_inFreq_of_inRing legal he' h')
    | freq f' => exact congrArg Elem.freq (inFreq_unique h h')

end

theorem ringElem_eq_map (s : State) (r : Nat) : s.ringElem r = (List.range s.params.n).map (s.ringCoef r) := by
  refine List.ext_getElem (by simp) fun c hc _ => ?_
  rw [length_ringElem] at hc
  have coef := getD_ringElem s r c 0 hc
  rw [List.getD_eq_getElem _ _ (by rwa [length_ringElem])] at coef
  rw [coef, List.getElem_map, List.getElem_range]

theorem freqElem_eq_map (s : State) (f : Nat) : s.freqElem f = (List.range s.params.l).map (s.freqEntry f) := by
  refine List.ext_getElem (by simp) fun j hj _ => ?_
  rw [length_freqElem] at hj
  have entry := getD_freqElem s f j Cplx.zero hj
  rw [List.getD_eq_getElem _ _ (by rwa [length_freqElem])] at entry
  rw [entry, List.getElem_map, List.getElem_range]

/-- The components of a FREQ entry are DW-bit values (10_state.md R24). -/
theorem cplxInRange_freqEntry {s : State} (legal : s.params.legal = true) (f j : Nat) :
    CplxInRange s.params.dw (s.freqEntry f j) :=
  ⟨component_inRange (one_le_dw legal) _ _, component_inRange (one_le_dw legal) _ _⟩

theorem entriesInRange_freqElem {s : State} (legal : s.params.legal = true) (f : Nat) :
    EntriesInRange s.params.dw (s.freqElem f) := by
  intro z mem
  rw [freqElem_eq_map] at mem
  obtain ⟨j, -, rfl⟩ := List.mem_map.1 mem
  exact cplxInRange_freqEntry legal f j

/-! ### One write of a whole element -/

/-- A write of a whole element: the element and its new contents. -/
inductive ElemWrite where
  | ring (r : Nat) (ws : List Word)
  | freq (f : Nat) (es : List Cplx)

namespace ElemWrite

/-- The element written. -/
def elem : ElemWrite → Elem
  | .ring r _ => .ring r
  | .freq f _ => .freq f

/-- The state after the write. -/
def apply (s : State) : ElemWrite → State
  | .ring r ws => s.setRing r ws
  | .freq f es => s.setFreq f es

/-- Whether the element exists and the contents have its length and, in FREQ, the width DW. -/
def Fits (p : Params) : ElemWrite → Prop
  | .ring r ws => r < p.rspace ∧ ws.length = p.n
  | .freq f es => f < p.fspace ∧ es.length = p.l ∧ EntriesInRange p.dw es

/-- Whether the element reads as written. -/
def Stands (t : State) : ElemWrite → Prop
  | .ring r ws => t.ringElem r = ws
  | .freq f es => t.freqElem f = es

theorem Fits.exists {p : Params} {w : ElemWrite} (h : w.Fits p) : w.elem.Exists p := by
  cases w <;> exact h.1

end ElemWrite

theorem ringElem_setRing {s : State} (r : Nat) {ws : List Word} (len : ws.length = s.params.n) :
    (s.setRing r ws).ringElem r = ws := by
  refine List.ext_getElem (by simp [len]) fun c hc hc' => ?_
  rw [length_ringElem] at hc
  have coef := getD_ringElem (s.setRing r ws) r c 0 hc
  rw [List.getD_eq_getElem _ _ (by rwa [length_ringElem])] at coef
  rw [coef, ringCoef_setRing_same s r c ws hc']

theorem freqElem_setFreq {s : State} (legal : s.params.legal = true) (f : Nat) {es : List Cplx}
    (len : es.length = s.params.l) (range : EntriesInRange s.params.dw es) : (s.setFreq f es).freqElem f = es := by
  refine List.ext_getElem (by simp [len]) fun j hj hj' => ?_
  rw [length_freqElem] at hj
  have entry := getD_freqElem (s.setFreq f es) f j Cplx.zero hj
  rw [List.getD_eq_getElem _ _ (by rwa [length_freqElem])] at entry
  obtain ⟨re, im⟩ := range es[j] (List.getElem_mem hj')
  rw [entry, freqEntry_setFreq_same s f j es (one_le_dw legal) (legal_dw legal).2 hj' re im]

/-- Memory holds the high word of a DW-bit component as it is. -/
theorem signHigh_of_inRange {p : Params} (legal : p.legal = true) {v : Int} (h : inRange p.dw v = true) :
    signHigh p (low32 (v / pow2 32)) = low32 (v / pow2 32) := by
  obtain ⟨dw_ge, dw_le⟩ := legal_dw legal
  have bound : (2 : Int) ^ (p.dw - 1) = 2 ^ (p.dw - 32 - 1) * 2 ^ 32 := by rw [← pow_add]; congr 1; omega
  have high : inRange (p.dw - 32) (v / pow2 32) = true := by
    rw [inRange_iff, pow2_eq] at h ⊢
    rw [bound] at h
    rw [pow2_eq]
    omega
  rw [signHigh_eq_low32, sext_congr (low32_emod (by omega) _), sext_of_inRange (by omega) high]

/-- Memory holds the four words of a DW-bit entry as they are. -/
theorem heldWord_entryWords {p : Params} (legal : p.legal = true) {f j q : Nat} (hf : f < p.fspace) (hj : j < p.l)
    (hq : q < 4) {z : Cplx} (range : CplxInRange p.dw z) :
    heldWord p (p.freqAddr f j q) ((entryWords z)[q]'hq) = (entryWords z)[q]'hq := by
  obtain ⟨re, im⟩ := range
  rw [heldWord_freqAddr hf hj hq]
  interval_cases q
  · rfl
  · exact signHigh_of_inRange legal re
  · rfl
  · exact signHigh_of_inRange legal im

theorem memOk_setRing {s : State} (legal : s.params.legal = true) {r : Nat} (hr : r < s.params.rspace)
    {ws : List Word} (len : ws.length = s.params.n) (h : s.memOk) : (s.setRing r ws).memOk := by
  refine Memory.wf_store h _ ws fun i hi => ?_
  have addr : s.params.ringAddr r 0 + 4 * i = s.params.ringAddr r i := by rw [Params.ringAddr, Params.ringAddr]; omega
  have ring : s.params.isRing (s.params.ringAddr r i) = true := isRing_ringAddr hr (len ▸ hi)
  rw [addr, heldWord_of_isRing legal ring, ring]
  exact ⟨rfl, rfl⟩

theorem memOk_setFreq {s : State} (legal : s.params.legal = true) {f : Nat} (hf : f < s.params.fspace)
    {es : List Cplx} (len : es.length = s.params.l) (range : EntriesInRange s.params.dw es) (h : s.memOk) :
    (s.setFreq f es).memOk := by
  refine Memory.wf_store h _ (es.flatMap entryWords) fun i hi => ?_
  have hi' := hi
  rw [length_flatMap_entryWords, len] at hi'
  obtain ⟨j, q, hq, rfl⟩ : ∃ j q, q < 4 ∧ i = 4 * j + q := ⟨i / 4, i % 4, Nat.mod_lt _ (by decide), by omega⟩
  have hj : j < s.params.l := by omega
  have addr : s.params.freqAddr f 0 0 + 4 * (4 * j + q) = s.params.freqAddr f j q := by
    rw [Params.freqAddr, Params.freqAddr]; omega
  have word := getElem?_flatMap_entryWords es j q hq (len ▸ hj)
  rw [List.getElem?_eq_getElem hi, List.getElem?_eq_getElem (l := entryWords _) hq, Option.some_inj] at word
  rw [addr, word, isFreq_freqAddr hf hj hq, Bool.or_true]
  exact ⟨rfl, heldWord_entryWords legal hf hj hq (range _ (List.getElem_mem _))⟩

/-! ### Sequences of writes -/

/-- `t` is `s` after writes to whole elements, of which `ws` are the last to each: memory alone changes, only inside
these elements, which read as written, and the canonical form is kept. -/
structure Performs (ws : List ElemWrite) (s t : State) : Prop where
  onlyMem : OnlyMem s t
  fits : ∀ w ∈ ws, w.Fits s.params
  unchanged : ∀ a, (∀ w ∈ ws, ¬ w.elem.Covers s.params a) → t.word a = s.word a
  stands : ∀ w ∈ ws, w.Stands t
  memOk : s.memOk → t.memOk

namespace Performs

theorem refl (s : State) : Performs [] s s where
  onlyMem := .refl s
  fits := nofun
  unchanged _ _ := rfl
  stands := nofun
  memOk h := h

theorem single {s : State} (legal : s.params.legal = true) {w : ElemWrite} (fits : w.Fits s.params) :
    Performs [w] s (w.apply s) where
  onlyMem := by cases w <;> exact ⟨_, rfl⟩
  fits := by simpa using fits
  unchanged a outside := by
    have outside := outside w List.mem_cons_self
    cases w with
    | ring r ws => exact word_setRing_outside s r ws a fits.2 outside
    | freq f es => exact word_setFreq_outside s f es a fits.2.1 outside
  stands := by
    simp only [List.mem_singleton, forall_eq]
    cases w with
    | ring r ws => exact ringElem_setRing r fits.2
    | freq f es => exact freqElem_setFreq legal f fits.2.1 fits.2.2
  memOk h := by
    cases w with
    | ring r ws => exact memOk_setRing legal fits.1 fits.2 h
    | freq f es => exact memOk_setFreq legal fits.1 fits.2.1 fits.2.2 h

section
variable {ws vs : List ElemWrite} {s t u : State} (h : Performs ws s t)

section
include h

theorem params : t.params = s.params := by obtain ⟨m, rfl⟩ := h.onlyMem; rfl
theorem k : t.k = s.k := by obtain ⟨m, rfl⟩ := h.onlyMem; rfl
theorem ell : t.ell = s.ell := by obtain ⟨m, rfl⟩ := h.onlyMem; rfl
theorem bgbit : t.bgbit = s.bgbit := by obtain ⟨m, rfl⟩ := h.onlyMem; rfl
theorem kpl : t.kpl = s.kpl := by obtain ⟨m, rfl⟩ := h.onlyMem; rfl
theorem tsh : t.tsh = s.tsh := by obtain ⟨m, rfl⟩ := h.onlyMem; rfl
theorem dsh : t.dsh = s.dsh := by obtain ⟨m, rfl⟩ := h.onlyMem; rfl
theorem psh : t.psh = s.psh := by obtain ⟨m, rfl⟩ := h.onlyMem; rfl
theorem rowSlots : rowSlots t = rowSlots s := by obtain ⟨m, rfl⟩ := h.onlyMem; rfl

variable (legal : s.params.legal = true)
include legal

/-- A word of an element that is not written stays. -/
theorem word_eq {e : Elem} (he : e.Exists s.params) (other : ∀ w ∈ ws, w.elem ≠ e) {a : Nat}
    (inside : e.Covers s.params a) : t.word a = s.word a :=
  h.unchanged a fun w mem covered =>
    other w mem (Elem.covers_unique legal (h.fits w mem).exists he covered inside)

theorem ringElem_eq {r : Nat} (hr : r < s.params.rspace) (other : ∀ w ∈ ws, w.elem ≠ .ring r) :
    t.ringElem r = s.ringElem r := by
  rw [ringElem_eq_map, ringElem_eq_map, h.params]
  refine List.map_congr_left fun c hc => ?_
  rw [State.ringCoef, State.ringCoef, h.params]
  exact h.word_eq (e := .ring r) legal hr other (inRing_ringAddr r (List.mem_range.1 hc))

theorem freqElem_eq {f : Nat} (hf : f < s.params.fspace) (other : ∀ w ∈ ws, w.elem ≠ .freq f) :
    t.freqElem f = s.freqElem f := by
  rw [freqElem_eq_map, freqElem_eq_map, h.params]
  refine List.map_congr_left fun j hj => ?_
  have word (q : Nat) (hq : q < 4) := h.word_eq (e := .freq f) legal hf other
    (inFreq_freqAddr f (List.mem_range.1 hj) hq)
  simp only [freqEntry_eq, h.params, word 0 (by decide), word 1 (by decide), word 2 (by decide), word 3 (by decide)]

/-- What stood in an element that is not written stands after the writes. -/
theorem keeps_stands {w : ElemWrite} (fits : w.Fits s.params) (other : ∀ v ∈ ws, v.elem ≠ w.elem) (before : w.Stands s) :
    w.Stands t := by
  cases w with
  | ring r cs => exact (h.ringElem_eq legal fits.1 other).trans before
  | freq f es => exact (h.freqElem_eq legal fits.1 other).trans before

end

section
variable (k : Performs vs t u)
include h k

/-- Writes to the elements written before, and perhaps to others, leave only the later writes to be seen. -/
theorem overwrite (covered : ∀ w ∈ ws, ∃ v ∈ vs, v.elem = w.elem) : Performs vs s u where
  onlyMem := h.onlyMem.trans k.onlyMem
  fits v mem := h.params ▸ k.fits v mem
  unchanged a outside := by
    refine (k.unchanged a (h.params ▸ outside)).trans (h.unchanged a fun w mem inside => ?_)
    obtain ⟨v, mem', same⟩ := covered w mem
    exact outside v mem' (same ▸ inside)
  stands := k.stands
  memOk := k.memOk ∘ h.memOk

/-- Writes to other elements than before are seen together with those before. -/
theorem append (legal : s.params.legal = true) (apart : ∀ w ∈ ws, ∀ v ∈ vs, v.elem ≠ w.elem) :
    Performs (ws ++ vs) s u where
  onlyMem := h.onlyMem.trans k.onlyMem
  fits w mem := (List.mem_append.1 mem).elim (h.fits w) fun mem => h.params ▸ k.fits w mem
  unchanged a outside := by
    refine (k.unchanged a fun v mem => ?_).trans (h.unchanged a fun w mem => outside w (List.mem_append_left _ mem))
    rw [h.params]
    exact outside v (List.mem_append_right _ mem)
  stands w mem := by
    rcases List.mem_append.1 mem with mem | mem
    · exact k.keeps_stands (h.params ▸ legal) (h.params ▸ h.fits w mem) (apart w mem) (h.stands w mem)
    · exact k.stands w mem
  memOk := k.memOk ∘ h.memOk

end

/-- The frame in the form of the statements: the elements written are among those listed. -/
theorem sameMemoryBut (h : Performs ws s t) (rings freqs : List Nat) (ring : ∀ r cs, .ring r cs ∈ ws → r ∈ rings)
    (freq : ∀ f es, .freq f es ∈ ws → f ∈ freqs) : SameMemoryBut rings freqs s t := by
  refine fun a noRing noFreq => h.unchanged a fun w mem => ?_
  cases w with
  | ring r cs => exact noRing r (ring r cs mem)
  | freq f es => exact noFreq f (freq f es mem)

end

end Performs

/-! ### Loops of writes -/

/-- The calculation writes the elements that `c` lists, with the overflow of `c`. -/
structure Writes (c : Calc (List ElemWrite)) (s : State) (out : Calc State) : Prop where
  performs : Performs c.val s out.val
  ovf : out.ovf = c.ovf

theorem writes_single {s : State} (legal : s.params.legal = true) {c : Calc ElemWrite} (fits : c.val.Fits s.params) :
    Writes (c.map fun w => [w]) s (c.map fun w => w.apply s) :=
  ⟨.single legal fits, rfl⟩

section
variable {α : Type} {writes : α → Calc (List ElemWrite)} {f : State → α → Calc State} {s : State} {l : List α}

/-- The writes of `x` touch none of the elements of `ws`. -/
def Apart (c : Calc (List ElemWrite)) (ws : List ElemWrite) : Prop := ∀ w ∈ ws, ∀ v ∈ c.val, v.elem ≠ w.elem

/-- A loop from `t` on, where the writes `before` have been made and stay clear of the loop's. -/
theorem loop_writes_from (legal : s.params.legal = true) {l' : List α} (part : ∀ x ∈ l', x ∈ l)
    (apart : l'.Pairwise fun x x' => Apart (writes x') (writes x).val)
    (steps : ∀ x ∈ l, ∀ ws t, Performs ws s t → (∀ w ∈ ws, ∃ x' ∈ l, w ∈ (writes x').val) → Apart (writes x) ws →
      Writes (writes x) t (f t x))
    {ws : List ElemWrite} {t : State} (before : Performs ws s t) (source : ∀ w ∈ ws, ∃ x' ∈ l, w ∈ (writes x').val)
    (clear : ∀ x ∈ l', Apart (writes x) ws) :
    Performs (l'.flatMap fun x => (writes x).val) t (Calc.loop f t l').val
      ∧ (Calc.loop f t l').ovf = l'.any fun x => (writes x).ovf := by
  induction l' generalizing ws t with
  | nil => exact ⟨.refl t, rfl⟩
  | cons x rest ih =>
    obtain ⟨first, apart⟩ := List.pairwise_cons.1 apart
    have step := steps x (part x List.mem_cons_self) ws t before source (clear x List.mem_cons_self)
    have after := before.append step.performs legal (clear x List.mem_cons_self)
    obtain ⟨performs, ovf⟩ := ih (fun y mem => part y (List.mem_cons_of_mem x mem)) apart after
      (fun w mem => (List.mem_append.1 mem).elim (source w) fun mem => ⟨x, part x List.mem_cons_self, mem⟩)
      (fun y mem w mem' => (List.mem_append.1 mem').elim (clear y (List.mem_cons_of_mem x mem) w) (first y mem w))
    refine ⟨step.performs.append performs (before.params ▸ legal) fun w mem v mem' => ?_, ?_⟩
    · obtain ⟨y, mem'', mem'⟩ := List.mem_flatMap.1 mem'
      exact first y mem'' w mem v mem'
    · rw [Calc.loop, List.any_cons, step.ovf, ovf]

/-- A loop whose steps write different elements, each as its own calculation says whatever the steps before it wrote,
makes all the writes. -/
theorem loop_writes (legal : s.params.legal = true)
    (apart : l.Pairwise fun x x' => Apart (writes x') (writes x).val)
    (steps : ∀ x ∈ l, ∀ ws t, Performs ws s t → (∀ w ∈ ws, ∃ x' ∈ l, w ∈ (writes x').val) → Apart (writes x) ws →
      Writes (writes x) t (f t x)) :
    Writes ⟨l.flatMap fun x => (writes x).val, l.any fun x => (writes x).ovf⟩ s (Calc.loop f s l) := by
  obtain ⟨performs, ovf⟩ := loop_writes_from legal (fun _ mem => mem) apart steps (.refl s) nofun fun _ _ => nofun
  exact ⟨performs, ovf⟩

end

end Sys2Proof.Machine
end

section
/-! PROOFS. The element ids in use with a legal CFG: their ranges, and that different names are different elements
(10_state.md R25, R26; 42_gsw.md R104). -/

namespace Sys2Proof

/-- A row index and a slot index are read off a row-by-row index. -/
theorem mul_add_inj {m a b a' b' : Nat} (hb : b < m) (hb' : b' < m) (h : a * m + b = a' * m + b') : a = a' ∧ b = b' := by
  have row {x y : Nat} (hy : y < m) : (x * m + y) / m = x :=
    Nat.div_eq_of_lt_le (Nat.le_add_right _ _) (by rw [Nat.succ_mul]; omega)
  have rows : a = a' := (row hb).symm.trans ((congrArg (· / m) h).trans (row hb'))
  exact ⟨rows, by rw [rows] at h; omega⟩

section
variable {p : Params} {row slot : Nat}

theorem Params.gswf_lt (hrow : row < p.kplMax) (hslot : slot ≤ p.kMax) : p.gswf row slot < p.kplMax * (p.kMax + 1) :=
  Machine.mul_add_lt_mul hrow (Nat.lt_succ_of_le hslot)

theorem Params.gswf_lt_fspace (hrow : row < p.kplMax) (hslot : slot ≤ p.kMax) : p.gswf row slot < p.fspace := by
  have := Params.gswf_lt hrow hslot
  rw [Params.fspace]
  omega

theorem Params.gswr_lt_rspace (hrow : row < p.kplMax) (hslot : slot ≤ p.kMax) : p.gswr row slot < p.rspace := by
  have : (row + 1) * (p.kMax + 1) + slot < (p.kplMax + 1) * (p.kMax + 1) :=
    Machine.mul_add_lt_mul (Nat.succ_lt_succ hrow) (Nat.lt_succ_of_le hslot)
  rw [Params.rspace, Params.gswr]
  omega

theorem Params.digr_lt_rspace (hrow : row < p.kplMax) : p.digr row < p.rspace := by
  rw [Params.rspace, Params.digr]
  omega

theorem Params.digf_lt_fspace (hrow : row < p.kplMax) : p.digf row < p.fspace := by
  rw [Params.fspace, Params.digf]
  omega

theorem Params.tmpf_lt_fspace (hslot : slot ≤ p.kMax) : p.tmpf slot < p.fspace := by
  rw [Params.fspace, Params.tmpf]
  omega

/-- The accumulator lies below the digit polynomials. -/
theorem Params.acc_lt_digr (hslot : slot ≤ p.kMax) : p.acc slot < p.digr row := by
  have : p.kMax + 1 ≤ (p.kplMax + 1) * (p.kMax + 1) := Nat.le_mul_of_pos_left _ p.kplMax.succ_pos
  rw [Params.acc, Params.digr]
  omega

theorem Params.acc_lt_rspace (hslot : slot ≤ p.kMax) : p.acc slot < p.rspace := by
  have below := Params.acc_lt_digr (p := p) (row := 0) hslot
  rw [Params.digr] at below
  rw [Params.rspace]
  omega

/-- The store lies below the digit spectra, and these below the temporary accumulator. -/
theorem Params.gswf_lt_digf {row' : Nat} (hrow : row < p.kplMax) (hslot : slot ≤ p.kMax) :
    p.gswf row slot < p.digf row' := by
  have := Params.gswf_lt hrow hslot
  rw [Params.digf]
  omega

theorem Params.digf_lt_tmpf (hrow : row < p.kplMax) : p.digf row < p.tmpf slot := by
  rw [Params.digf, Params.tmpf]
  omega

theorem Params.gswf_inj {row' slot' : Nat} (hslot : slot ≤ p.kMax) (hslot' : slot' ≤ p.kMax)
    (h : p.gswf row slot = p.gswf row' slot') : row = row' ∧ slot = slot' :=
  mul_add_inj (Nat.lt_succ_of_le hslot) (Nat.lt_succ_of_le hslot') h

theorem Params.gswr_inj {row' slot' : Nat} (hslot : slot ≤ p.kMax) (hslot' : slot' ≤ p.kMax)
    (h : p.gswr row slot = p.gswr row' slot') : row = row' ∧ slot = slot' := by
  obtain ⟨rows, slots⟩ := mul_add_inj (Nat.lt_succ_of_le hslot) (Nat.lt_succ_of_le hslot') h
  exact ⟨Nat.succ.inj rows, slots⟩

end

end Sys2Proof

namespace Sys2Proof.Machine

theorem mem_rowSlots {s : State} {x : Nat × Nat} : x ∈ rowSlots s ↔ x.1 < s.kpl ∧ x.2 ≤ s.k := by
  have product : rowSlots s = List.range s.kpl ×ˢ List.range (s.k + 1) := rfl
  rw [product, List.mem_product, List.mem_range, List.mem_range, Nat.lt_succ_iff]

theorem mem_diagonal {s : State} {x : Nat × Nat} : x ∈ diagonal s ↔ x.1 < s.ell ∧ x.2 ≤ s.k := by
  have product : diagonal s = List.range s.ell ×ˢ List.range (s.k + 1) := rfl
  rw [product, List.mem_product, List.mem_range, List.mem_range, Nat.lt_succ_iff]

theorem nodup_rowSlots (s : State) : (rowSlots s).Nodup := List.Nodup.product List.nodup_range List.nodup_range

theorem nodup_diagonal (s : State) : (diagonal s).Nodup := List.Nodup.product List.nodup_range List.nodup_range

/-- A digit row is a row in use. -/
theorem digitRow_lt_kpl {s : State} {i j : Nat} (hi : i ≤ s.k) (hj : j < s.ell) : i * s.ell + j < s.kpl :=
  mul_add_lt_mul (Nat.lt_succ_of_le hi) hj

section
variable {s : State} (cfgLegal : s.cfgLegal = true)
include cfgLegal

theorem k_le_kMax : s.k ≤ s.params.kMax := by
  obtain ⟨-, k_le, -⟩ := (cfgLegal_iff s).1 cfgLegal
  exact k_le

/-- The rows in use are among those synthesised. -/
theorem kpl_le_kplMax : s.kpl ≤ s.params.kplMax := by
  obtain ⟨-, k_le, -, ell_le, -⟩ := (cfgLegal_iff s).1 cfgLegal
  exact Nat.mul_le_mul (Nat.succ_le_succ k_le) ell_le

end

end Sys2Proof.Machine
end

section
/-! PROOFS. The operations on whole elements as writes (40_transform.md R86; 41_frequency.md R96 to R101; 42_gsw.md
R110). -/

namespace Sys2Proof

theorem Calc.map_mk {α β : Type} (g : α → β) (v : α) (o : Bool) : Calc.map g ⟨v, o⟩ = ⟨g v, o⟩ := rfl

end Sys2Proof

namespace Sys2Proof.Machine

/-- A constant added to the real part of every entry. -/
def addedEach (dw : Nat) (k : Int) (es : List Cplx) : Calc (List Cplx) :=
  Calc.each (fun x : Cplx => Calc.cplx (addw dw x.re k) (Calc.exact x.im)) es

/-- The torus constant c at scale tsh added to the real part of every entry (41_frequency.md R100). -/
def addedConst (p : Params) (tsh : Nat) (c : Word) (es : List Cplx) : Calc (List Cplx) :=
  let k := fit p.dw (signed32 c * pow2 tsh)
  ⟨(addedEach p.dw k.val es).val, k.ovf || (addedEach p.dw k.val es).ovf⟩

theorem addConst_eq (f : Nat) (c : Word) (s : State) :
    addConst f c s = (addedConst s.params s.tsh c (s.freqElem f)).map fun es => s.setFreq f es := by
  rw [addedConst, Calc.map_mk]
  rfl

/-- The products of two elements added to a third, entry by entry (41_frequency.md R101). -/
def macEntries (p : Params) (psh : Nat) (ds as bs : List Cplx) : Calc (List Cplx) :=
  Calc.each (fun j => mac p.dw psh (ds.getD j Cplx.zero) (as.getD j Cplx.zero) (bs.getD j Cplx.zero)) (List.range p.l)

/-- Digit j of every coefficient as a word (42_gsw.md R110). -/
def digitWords (ell bgbit : Nat) (src : List Word) (j : Nat) : List Word :=
  src.map fun a => low32 (digit ell bgbit a j)

/-- The writes of a decomposition of `src` to the elements from r on. -/
def digitWrites (ell bgbit r : Nat) (src : List Word) : List ElemWrite :=
  (List.range ell).map fun j => .ring (r + j) (digitWords ell bgbit src j)

section
variable {p : Params}

theorem entriesInRange_each {α : Type} {dw : Nat} {f : α → Calc Cplx} (h : ∀ x, CplxInRange dw (f x).val)
    (l : List α) : EntriesInRange dw (Calc.each f l).val := by
  intro z mem
  rw [Calc.each_val] at mem
  obtain ⟨x, -, rfl⟩ := List.mem_map.1 mem
  exact h x

theorem length_r2f (p : Params) (sh : Nat) (a : List Word) : (r2f p sh a).val.length = p.l := length_fft .fwd _

theorem entriesInRange_r2f (hdw : 1 ≤ p.dw) (sh : Nat) (a : List Word) : EntriesInRange p.dw (r2f p sh a).val :=
  entriesInRange_fft .fwd hdw (entriesInRange_each (fun j => by
    rw [preTwist_val]
    exact ⟨inRange_sext hdw _, inRange_sext hdw _⟩) _)

theorem length_addedConst (p : Params) (tsh : Nat) (c : Word) (es : List Cplx) :
    (addedConst p tsh c es).val.length = es.length := by
  rw [addedConst, addedEach, Calc.each_val, List.length_map]

theorem entriesInRange_addedConst (hdw : 1 ≤ p.dw) (tsh : Nat) (c : Word) {es : List Cplx}
    (h : EntriesInRange p.dw es) : EntriesInRange p.dw (addedConst p tsh c es).val := by
  intro z mem
  rw [addedConst, addedEach, Calc.each_val] at mem
  obtain ⟨x, entry, rfl⟩ := List.mem_map.1 mem
  obtain ⟨-, im⟩ := h x entry
  exact ⟨inRange_sext hdw _, im⟩

theorem length_macEntries (p : Params) (psh : Nat) (ds as bs : List Cplx) :
    (macEntries p psh ds as bs).val.length = p.l := by
  rw [macEntries, Calc.each_val, List.length_map, List.length_range]

theorem entriesInRange_macEntries (hdw : 1 ≤ p.dw) (psh : Nat) (ds as bs : List Cplx) :
    EntriesInRange p.dw (macEntries p psh ds as bs).val :=
  entriesInRange_each (fun _ => ⟨inRange_sext hdw _, inRange_sext hdw _⟩) _

theorem entriesInRange_zero (hdw : 1 ≤ p.dw) : EntriesInRange p.dw (List.replicate p.l Cplx.zero) := by
  intro z mem
  rw [List.eq_of_mem_replicate mem]
  exact cplxInRange_zero hdw

end

section
variable {s : State} (legal : s.params.legal = true)
include legal

theorem writes_setFreq {f : Nat} (hf : f < s.params.fspace) {c : Calc (List Cplx)} (len : c.val.length = s.params.l)
    (range : EntriesInRange s.params.dw c.val) :
    Writes (c.map fun es => [.freq f es]) s (c.map fun es => s.setFreq f es) :=
  writes_single (c := c.map (.freq f)) legal ⟨hf, len, range⟩

theorem writes_setRing {r : Nat} (hr : r < s.params.rspace) {c : Calc (List Word)} (len : c.val.length = s.params.n) :
    Writes (c.map fun ws => [.ring r ws]) s (c.map fun ws => s.setRing r ws) :=
  writes_single (c := c.map (.ring r)) legal ⟨hr, len⟩

theorem writes_transformInPlace (dir : Dir) {f : Nat} (hf : f < s.params.fspace) :
    Writes ((fft s.params dir (s.freqElem f)).map fun es => [.freq f es]) s (transformInPlace dir f s) :=
  writes_setFreq legal hf (length_fft dir _)
    (entriesInRange_fft dir (one_le_dw legal) (entriesInRange_freqElem legal f))

theorem writes_ringToFreq {f : Nat} (hf : f < s.params.fspace) (r sh : Nat) :
    Writes ((r2f s.params sh (s.ringElem r)).map fun es => [.freq f es]) s (ringToFreq f r sh s) :=
  writes_setFreq legal hf (length_r2f _ sh _) (entriesInRange_r2f (one_le_dw legal) sh _)

theorem writes_freqToRing {r : Nat} (hr : r < s.params.rspace) (f : Nat) :
    Writes ((f2r s.params s.tsh (s.freqElem f)).map fun ws => [.ring r ws]) s (freqToRing r f s) :=
  writes_setRing legal hr ((f2r_length _ _ _).trans (legal_n legal).1.symm)

theorem writes_clearFreq {f : Nat} (hf : f < s.params.fspace) :
    Writes (Calc.exact [.freq f (List.replicate s.params.l Cplx.zero)]) s (Calc.exact (clearFreq f s)) :=
  writes_setFreq (c := Calc.exact (List.replicate s.params.l Cplx.zero)) legal hf List.length_replicate
    (entriesInRange_zero (one_le_dw legal))

theorem writes_addConst {f : Nat} (hf : f < s.params.fspace) (c : Word) :
    Writes ((addedConst s.params s.tsh c (s.freqElem f)).map fun es => [.freq f es]) s (addConst f c s) := by
  rw [addConst_eq]
  exact writes_setFreq legal hf ((length_addedConst _ _ _ _).trans (length_freqElem s f))
    (entriesInRange_addedConst (one_le_dw legal) _ c (entriesInRange_freqElem legal f))

theorem writes_multiplyAccumulate {d : Nat} (hd : d < s.params.fspace) (a b : Nat) :
    Writes ((macEntries s.params s.psh (s.freqElem d) (s.freqElem a) (s.freqElem b)).map fun es => [.freq d es]) s
      (multiplyAccumulate d a b s) :=
  writes_setFreq legal hd (length_macEntries _ _ _ _ _) (entriesInRange_macEntries (one_le_dw legal) _ _ _ _)

theorem writes_writeDigit {r j : Nat} (hr : r + j < s.params.rspace) {src : List Word}
    (len : src.length = s.params.n) :
    Writes (Calc.exact [.ring (r + j) (digitWords s.ell s.bgbit src j)]) s (Calc.exact (writeDigit r src s j)) :=
  writes_setRing (c := Calc.exact (digitWords s.ell s.bgbit src j)) legal hr ((List.length_map _).trans len)

end

/-- A fold is a loop without overflow. -/
theorem exact_foldl {α β : Type} (f : β → α → β) (b : β) (l : List α) :
    Calc.exact (l.foldl f b) = Calc.loop (fun c x => Calc.exact (f c x)) b l := by
  induction l generalizing b with
  | nil => rfl
  | cons x xs ih =>
    rw [List.foldl_cons, ih, Calc.loop]
    exact Calc.ext_iff.2 ⟨rfl, (Bool.false_or _).symm⟩

/-- Steps that each write one element, different for different steps, stay clear of each other. -/
theorem pairwise_apart {α : Type} {writes : α → Calc (List ElemWrite)} {l : List α} (nodup : l.Nodup)
    (differ : ∀ x ∈ l, ∀ x' ∈ l, ∀ w ∈ (writes x).val, ∀ v ∈ (writes x').val, v.elem = w.elem → x = x') :
    l.Pairwise fun x x' => Apart (writes x') (writes x).val :=
  nodup.pairwise_of_forall_ne fun x mem x' mem' ne w hw v hv same => ne (differ x mem x' mem' w hw v hv same)

/-- A decomposition reads its source whole, then writes one element for each digit. -/
theorem writes_decompose {s : State} (legal : s.params.legal = true) {r : Nat}
    (hr : ∀ j < s.ell, r + j < s.params.rspace) (a : Nat) :
    Writes (Calc.exact (digitWrites s.ell s.bgbit r (s.ringElem a))) s (Calc.exact (decompose r a s)) := by
  have loop := loop_writes (s := s) (l := List.range s.ell) legal
    (writes := fun j => Calc.exact [.ring (r + j) (digitWords s.ell s.bgbit (s.ringElem a) j)])
    (f := fun t j => Calc.exact (writeDigit r (s.ringElem a) t j))
    (pairwise_apart List.nodup_range fun j _ j' _ w hw v hv same => ?_)
    (fun j mem ws t before _ _ => ?_)
  · rw [decompose, exact_foldl]
    have list : (List.range s.ell).flatMap (fun j => [ElemWrite.ring (r + j) (digitWords s.ell s.bgbit (s.ringElem a) j)])
        = digitWrites s.ell s.bgbit r (s.ringElem a) := by
      rw [digitWrites, List.map_eq_flatMap]
    have noOvf : (List.range s.ell).any (fun _ => false) = false := by simp
    simpa only [Calc.exact, list, noOvf] using loop
  · simp only [Calc.exact_val, List.mem_singleton] at hw hv
    obtain rfl := hw
    obtain rfl := hv
    injection same
    omega
  · have step := writes_writeDigit (s := t) (r := r) (j := j) (src := s.ringElem a) (before.params ▸ legal)
      (before.params ▸ hr j (List.mem_range.1 mem)) (by rw [length_ringElem, before.params])
    rwa [before.ell, before.bgbit] at step

end Sys2Proof.Machine
end

section
/-! PROOFS. The loops over the rows and slots in use as writes (42_gsw.md R113 to R116). -/

namespace Sys2Proof.Machine

/-- A loop whose steps write one element each, different for different steps. -/
theorem loop_writes_single {α γ : Type} {contents : α → Calc γ} {write : α → γ → ElemWrite} {elem : α → Elem}
    {f : State → α → Calc State} {s : State} {l : List α} (legal : s.params.legal = true) (nodup : l.Nodup)
    (target : ∀ x v, (write x v).elem = elem x) (inj : ∀ x ∈ l, ∀ x' ∈ l, elem x = elem x' → x = x')
    (steps : ∀ x ∈ l, ∀ ws t, Performs ws s t → (∀ w ∈ ws, ∃ x' ∈ l, w.elem = elem x') →
      (∀ w ∈ ws, w.elem ≠ elem x) → Writes ((contents x).map fun v => [write x v]) t (f t x)) :
    Writes ⟨l.map fun x => write x (contents x).val, l.any fun x => (contents x).ovf⟩ s (Calc.loop f s l) := by
  rw [List.map_eq_flatMap]
  refine loop_writes (writes := fun x => (contents x).map fun v => [write x v]) legal (pairwise_apart nodup ?differ)
    ?steps
  case differ =>
    intro x mem x' mem' w hw v hv same
    rw [List.mem_singleton.1 hw, List.mem_singleton.1 hv, target, target] at same
    exact inj x mem x' mem' same.symm
  case steps =>
    intro x mem ws t before source apart
    refine steps x mem ws t before (fun w hw => ?_) fun w hw same => ?_
    · obtain ⟨x', mem', hw⟩ := source w hw
      exact ⟨x', mem', by rw [List.mem_singleton.1 hw, target]⟩
    · exact apart w hw _ List.mem_cons_self ((target x _).trans same.symm)

theorem Performs.cfgLegal {ws : List ElemWrite} {s t : State} (h : Performs ws s t) : t.cfgLegal = s.cfgLegal := by
  obtain ⟨m, rfl⟩ := h.onlyMem
  rfl

section
variable {s : State} (legal : s.params.legal = true) (cfgLegal : s.cfgLegal = true)

section
include cfgLegal

/-- The row and the slot of an index in use are synthesised. -/
theorem rowSlot_bounds {x : Nat × Nat} (mem : x ∈ rowSlots s) : x.1 < s.params.kplMax ∧ x.2 ≤ s.params.kMax := by
  obtain ⟨row, slot⟩ := mem_rowSlots.1 mem
  exact ⟨row.trans_le (kpl_le_kplMax cfgLegal), slot.trans (k_le_kMax cfgLegal)⟩

theorem diagonal_bounds {x : Nat × Nat} (mem : x ∈ diagonal s) :
    x.2 * s.ell + x.1 < s.params.kplMax ∧ x.2 ≤ s.params.kMax := by
  obtain ⟨digit, slot⟩ := mem_diagonal.1 mem
  exact ⟨(digitRow_lt_kpl slot digit).trans_le (kpl_le_kplMax cfgLegal), slot.trans (k_le_kMax cfgLegal)⟩

theorem gswf_inj_rowSlots {x x' : Nat × Nat} (mem : x ∈ rowSlots s) (mem' : x' ∈ rowSlots s)
    (same : Elem.freq (s.params.gswf x.1 x.2) = Elem.freq (s.params.gswf x'.1 x'.2)) : x = x' := by
  obtain ⟨row, slot⟩ := Params.gswf_inj (rowSlot_bounds cfgLegal mem).2 (rowSlot_bounds cfgLegal mem').2
    (Elem.freq.inj same)
  exact Prod.ext row slot

theorem gswr_inj_rowSlots {x x' : Nat × Nat} (mem : x ∈ rowSlots s) (mem' : x' ∈ rowSlots s)
    (same : Elem.ring (s.params.gswr x.1 x.2) = Elem.ring (s.params.gswr x'.1 x'.2)) : x = x' := by
  obtain ⟨row, slot⟩ := Params.gswr_inj (rowSlot_bounds cfgLegal mem).2 (rowSlot_bounds cfgLegal mem').2
    (Elem.ring.inj same)
  exact Prod.ext row slot

theorem gswf_inj_diagonal {x x' : Nat × Nat} (mem : x ∈ diagonal s) (mem' : x' ∈ diagonal s)
    (same : Elem.freq (s.params.gswf (x.2 * s.ell + x.1) x.2) = Elem.freq (s.params.gswf (x'.2 * s.ell + x'.1) x'.2)) :
    x = x' := by
  obtain ⟨row, slot⟩ := Params.gswf_inj (diagonal_bounds cfgLegal mem).2 (diagonal_bounds cfgLegal mem').2
    (Elem.freq.inj same)
  rw [slot] at row
  exact Prod.ext (Nat.add_left_cancel row) slot

end

include legal cfgLegal

/-- GSW_CLEAR writes 0 to every slot in use (42_gsw.md R113). -/
theorem writes_clearStore : Writes
    ⟨(rowSlots s).map fun x => .freq (s.params.gswf x.1 x.2) (List.replicate s.params.l Cplx.zero),
      (rowSlots s).any fun _ => false⟩ s (Calc.exact (clearStore s)) := by
  rw [clearStore, exact_foldl]
  refine loop_writes_single (elem := fun x => .freq (s.params.gswf x.1 x.2))
    (contents := fun _ => Calc.exact (List.replicate s.params.l Cplx.zero))
    (write := fun x => .freq (s.params.gswf x.1 x.2)) legal
    (nodup_rowSlots s) (fun _ _ => rfl) (fun x mem x' mem' => gswf_inj_rowSlots cfgLegal mem mem') ?_
  intro x mem ws t before _ _
  obtain ⟨row, slot⟩ := rowSlot_bounds cfgLegal mem
  rw [← before.params]
  exact writes_clearFreq (before.params ▸ legal) (Params.gswf_lt_fspace (before.params ▸ row) (before.params ▸ slot))

/-- The sum that GSW_ADDG writes for digit x.1 of row x.2 (42_gsw.md R114). -/
def gadgetSum (s : State) (x : Nat × Nat) : Calc (List Cplx) :=
  addedConst s.params s.tsh (BitVec.ofNat 32 (gadget s.bgbit x.1)) (s.freqElem (s.params.gswf (x.2 * s.ell + x.1) x.2))

/-- GSW_ADDG writes every slot of the diagonal once, from what stood there (42_gsw.md R114). -/
theorem writes_addGadget : Writes
    ⟨(diagonal s).map fun x => .freq (s.params.gswf (x.2 * s.ell + x.1) x.2) (gadgetSum s x).val,
      (diagonal s).any fun x => (gadgetSum s x).ovf⟩ s (addGadget s) := by
  refine loop_writes_single (elem := fun x => .freq (s.params.gswf (x.2 * s.ell + x.1) x.2))
    (contents := gadgetSum s) (write := fun x => .freq (s.params.gswf (x.2 * s.ell + x.1) x.2)) legal
    (nodup_diagonal s) (fun _ _ => rfl) (fun x mem x' mem' => gswf_inj_diagonal cfgLegal mem mem') ?_
  intro x mem ws t before _ other
  obtain ⟨row, slot⟩ := diagonal_bounds cfgLegal mem
  have inside := Params.gswf_lt_fspace row slot
  have step := writes_addConst (s := t) (f := s.params.gswf (x.2 * s.ell + x.1) x.2) (before.params ▸ legal)
    (before.params ▸ inside) (BitVec.ofNat 32 (gadget s.bgbit x.1))
  rw [before.params, before.tsh, before.freqElem_eq legal inside other] at step
  rw [addGadgetAt, before.params, before.ell, before.bgbit]
  exact step

/-- GSW_TOF writes the spectrum of every ring form, which it leaves alone (42_gsw.md R115). -/
theorem writes_storeToFreq : Writes
    ⟨(rowSlots s).map fun x => .freq (s.params.gswf x.1 x.2)
        (r2f s.params s.tsh (s.ringElem (s.params.gswr x.1 x.2))).val,
      (rowSlots s).any fun x => (r2f s.params s.tsh (s.ringElem (s.params.gswr x.1 x.2))).ovf⟩ s (storeToFreq s) := by
  refine loop_writes_single (elem := fun x => .freq (s.params.gswf x.1 x.2))
    (contents := fun x => r2f s.params s.tsh (s.ringElem (s.params.gswr x.1 x.2)))
    (write := fun x => .freq (s.params.gswf x.1 x.2)) legal
    (nodup_rowSlots s) (fun _ _ => rfl) (fun x mem x' mem' => gswf_inj_rowSlots cfgLegal mem mem') ?_
  intro x mem ws t before source _
  obtain ⟨row, slot⟩ := rowSlot_bounds cfgLegal mem
  have noRing : ∀ w ∈ ws, w.elem ≠ .ring (s.params.gswr x.1 x.2) := fun w hw same => by
    obtain ⟨_, _, freq⟩ := source w hw
    cases freq.symm.trans same
  have inside := Params.gswf_lt_fspace row slot
  have step := writes_ringToFreq (s := t) (f := s.params.gswf x.1 x.2) (before.params ▸ legal)
    (before.params ▸ inside) (s.params.gswr x.1 x.2) s.tsh
  rw [before.params, before.ringElem_eq legal (Params.gswr_lt_rspace row slot) noRing] at step
  rw [before.params, before.tsh]
  exact step

/-- GSW_FROMF writes the ring form of every spectrum, which it leaves alone (42_gsw.md R116). -/
theorem writes_storeToRing : Writes
    ⟨(rowSlots s).map fun x => .ring (s.params.gswr x.1 x.2)
        (f2r s.params s.tsh (s.freqElem (s.params.gswf x.1 x.2))).val,
      (rowSlots s).any fun x => (f2r s.params s.tsh (s.freqElem (s.params.gswf x.1 x.2))).ovf⟩ s (storeToRing s) := by
  refine loop_writes_single (elem := fun x => .ring (s.params.gswr x.1 x.2))
    (contents := fun x => f2r s.params s.tsh (s.freqElem (s.params.gswf x.1 x.2)))
    (write := fun x => .ring (s.params.gswr x.1 x.2)) legal
    (nodup_rowSlots s) (fun _ _ => rfl) (fun x mem x' mem' => gswr_inj_rowSlots cfgLegal mem mem') ?_
  intro x mem ws t before source _
  obtain ⟨row, slot⟩ := rowSlot_bounds cfgLegal mem
  have noFreq : ∀ w ∈ ws, w.elem ≠ .freq (s.params.gswf x.1 x.2) := fun w hw same => by
    obtain ⟨_, _, ring⟩ := source w hw
    cases ring.symm.trans same
  have inside := Params.gswr_lt_rspace row slot
  have step := writes_freqToRing (s := t) (r := s.params.gswr x.1 x.2) (before.params ▸ legal)
    (before.params ▸ inside) (s.params.gswf x.1 x.2)
  rw [before.params, before.tsh, before.freqElem_eq legal (Params.gswf_lt_fspace row slot) noFreq] at step
  rw [before.params]
  exact step

end

end Sys2Proof.Machine
end

section
/-! PROOFS. The four steps of the external product as writes (43_extprod.md R120). -/

namespace Sys2Proof

/-- A loop over a concatenation of lists is a loop of loops. -/
theorem Calc.loop_flatMap {α β γ : Type} (f : β → γ → Calc β) (g : α → List γ) (b : β) (l : List α) :
    Calc.loop f b (l.flatMap g) = Calc.loop (fun c x => Calc.loop f c (g x)) b l := by
  induction l generalizing b with
  | nil => rfl
  | cons x xs ih =>
    rw [List.flatMap_cons, Calc.loop_append, Calc.loop]
    exact congrArg (Calc.andThen _) (funext fun c => ih c)

theorem Calc.loop_map_list {α β γ : Type} (f : β → γ → Calc β) (g : α → γ) (b : β) (l : List α) :
    Calc.loop f b (l.map g) = Calc.loop (fun c x => f c (g x)) b l := by
  induction l generalizing b with
  | nil => rfl
  | cons x xs ih => rw [List.map_cons, Calc.loop, Calc.loop, ih]

/-- The last step of a loop over a range. -/
theorem Calc.loop_range_succ {β : Type} (f : β → Nat → Calc β) (b : β) (n : Nat) :
    Calc.loop f b (List.range (n + 1)) = (Calc.loop f b (List.range n)).andThen fun c => f c n := by
  rw [List.range_succ, Calc.loop_append]
  congr 1
  funext c
  exact Calc.ext_iff.2 ⟨rfl, Bool.or_false _⟩

theorem Calc.each_congr {α β : Type} {f g : α → Calc β} {l : List α} (h : ∀ x ∈ l, f x = g x) :
    Calc.each f l = Calc.each g l := by
  induction l with
  | nil => rfl
  | cons x xs ih =>
    rw [Calc.each, Calc.each, h x List.mem_cons_self, ih fun y mem => h y (List.mem_cons_of_mem x mem)]

end Sys2Proof

namespace Sys2Proof.Machine

section
variable {s : State} (legal : s.params.legal = true) (cfgLegal : s.cfgLegal = true)

/-- Step 1: the digits of the accumulator (43_extprod.md R120). -/
def accDigits (s : State) : List ElemWrite :=
  (List.range (s.k + 1)).flatMap fun i =>
    digitWrites s.ell s.bgbit (s.params.digr (i * s.ell)) (s.ringElem (s.params.acc i))

/-- Step 2: the spectrum of digit row `row`. -/
def digitSpectrum (s : State) (row : Nat) : Calc (List Cplx) :=
  r2f s.params s.dsh (s.ringElem (s.params.digr row))

/-- Step 3: entry e of the products of the first n rows with slot `slot`, summed in the order of the rows. -/
def rowSum (s : State) (n slot e : Nat) : Calc Cplx :=
  Calc.loop (fun x row => mac s.params.dw s.psh x (s.freqEntry (s.params.digf row) e)
    (s.freqEntry (s.params.gswf row slot) e)) Cplx.zero (List.range n)

/-- The entries of slot `slot` of the temporary accumulator after n rows. -/
def rowSums (s : State) (n slot : Nat) : Calc (List Cplx) := Calc.each (rowSum s n slot) (List.range s.params.l)

/-- Step 4: the ring form of slot `slot`. -/
def ringResult (s : State) (slot : Nat) : Calc (List Word) := f2r s.params s.tsh (s.freqElem (s.params.tmpf slot))

theorem mem_digitWrites {ell bgbit r : Nat} {src : List Word} {w : ElemWrite} :
    w ∈ digitWrites ell bgbit r src ↔ ∃ j < ell, w = .ring (r + j) (digitWords ell bgbit src j) := by
  simp [digitWrites, eq_comm]

/-- The digit rows follow each other: digit j of slot i is row i * ELL + j. -/
theorem digr_add (p : Params) (row j : Nat) : p.digr row + j = p.digr (row + j) := Nat.add_assoc _ _ _

section
include legal cfgLegal

theorem writes_decomposeAcc : Writes ⟨accDigits s, (List.range (s.k + 1)).any fun _ => false⟩ s
    (Calc.exact (decomposeAcc s)) := by
  rw [decomposeAcc, exact_foldl]
  refine loop_writes (l := List.range (s.k + 1)) (writes := fun i => Calc.exact
    (digitWrites s.ell s.bgbit (s.params.digr (i * s.ell)) (s.ringElem (s.params.acc i)))) legal
    (pairwise_apart List.nodup_range ?differ) ?steps
  case differ =>
    intro i _ i' _ w hw v hv same
    obtain ⟨j, hj, rfl⟩ := mem_digitWrites.1 hw
    obtain ⟨j', hj', rfl⟩ := mem_digitWrites.1 hv
    have rows : s.params.digr (i' * s.ell) + j' = s.params.digr (i * s.ell) + j := Elem.ring.inj same
    rw [digr_add, digr_add, Params.digr, Params.digr] at rows
    exact (mul_add_inj hj' hj (Nat.add_left_cancel rows)).1.symm
  case steps =>
    intro i mem ws t before source _
    have hi : i ≤ s.k := Nat.lt_succ_iff.1 (List.mem_range.1 mem)
    have slot : i ≤ s.params.kMax := hi.trans (k_le_kMax cfgLegal)
    have inside (j : Nat) (hj : j < s.ell) : s.params.digr (i * s.ell) + j < s.params.rspace := by
      rw [digr_add]
      exact Params.digr_lt_rspace ((digitRow_lt_kpl hi hj).trans_le (kpl_le_kplMax cfgLegal))
    have notAcc : ∀ w ∈ ws, w.elem ≠ .ring (s.params.acc i) := fun w hw same => by
      obtain ⟨i', _, hw⟩ := source w hw
      obtain ⟨j, _, rfl⟩ := mem_digitWrites.1 hw
      have below := Params.acc_lt_digr (p := s.params) (row := i' * s.ell + j) slot
      rw [← digr_add, ← Elem.ring.inj same] at below
      exact lt_irrefl _ below
    have step := writes_decompose (s := t) (before.params ▸ legal) (r := s.params.digr (i * s.ell))
      (by rw [before.params, before.ell]; exact inside) (s.params.acc i)
    rw [before.ell, before.bgbit, before.ringElem_eq legal (Params.acc_lt_rspace slot) notAcc] at step
    rw [before.params, before.ell]
    exact step

theorem writes_transformDigits : Writes
    ⟨(List.range s.kpl).map fun row => .freq (s.params.digf row) (digitSpectrum s row).val,
      (List.range s.kpl).any fun row => (digitSpectrum s row).ovf⟩ s (transformDigits s) := by
  refine loop_writes_single (elem := fun row => .freq (s.params.digf row))
    (contents := digitSpectrum s) (write := fun row => .freq (s.params.digf row)) legal List.nodup_range (fun _ _ => rfl)
    (fun row _ row' _ same => Nat.add_left_cancel (Elem.freq.inj same)) ?_
  intro row mem ws t before source _
  have inUse := (List.mem_range.1 mem).trans_le (kpl_le_kplMax cfgLegal)
  have noRing : ∀ w ∈ ws, w.elem ≠ .ring (s.params.digr row) := fun w hw same => by
    obtain ⟨_, _, freq⟩ := source w hw
    cases freq.symm.trans same
  have inside := Params.digf_lt_fspace inUse
  have step := writes_ringToFreq (s := t) (f := s.params.digf row) (before.params ▸ legal)
    (before.params ▸ inside) (s.params.digr row) s.dsh
  rw [before.params, before.ringElem_eq legal (Params.digr_lt_rspace inUse) noRing] at step
  rw [before.params, before.dsh]
  exact step

theorem writes_clearTmp : Writes
    ⟨(List.range (s.k + 1)).map fun slot => .freq (s.params.tmpf slot) (List.replicate s.params.l Cplx.zero),
      (List.range (s.k + 1)).any fun _ => false⟩ s (Calc.exact (clearTmp s)) := by
  rw [clearTmp, exact_foldl]
  refine loop_writes_single (elem := fun slot => .freq (s.params.tmpf slot))
    (contents := fun _ => Calc.exact (List.replicate s.params.l Cplx.zero))
    (write := fun slot => .freq (s.params.tmpf slot)) legal
    List.nodup_range (fun _ _ => rfl) (fun slot _ slot' _ same => Nat.add_left_cancel (Elem.freq.inj same)) ?_
  intro slot mem ws t before _ _
  have inUse : slot ≤ s.params.kMax := (Nat.lt_succ_iff.1 (List.mem_range.1 mem)).trans (k_le_kMax cfgLegal)
  rw [← before.params]
  exact writes_clearFreq (before.params ▸ legal) (Params.tmpf_lt_fspace (before.params ▸ inUse))

theorem writes_convertBack : Writes
    ⟨(List.range (s.k + 1)).map fun slot => .ring (s.params.acc slot) (ringResult s slot).val,
      (List.range (s.k + 1)).any fun slot => (ringResult s slot).ovf⟩ s (convertBack s) := by
  refine loop_writes_single (elem := fun slot => .ring (s.params.acc slot))
    (contents := ringResult s) (write := fun slot => .ring (s.params.acc slot)) legal List.nodup_range (fun _ _ => rfl)
    (fun slot _ slot' _ same => Elem.ring.inj same) ?_
  intro slot mem ws t before source _
  have inUse : slot ≤ s.params.kMax := (Nat.lt_succ_iff.1 (List.mem_range.1 mem)).trans (k_le_kMax cfgLegal)
  have noFreq : ∀ w ∈ ws, w.elem ≠ .freq (s.params.tmpf slot) := fun w hw same => by
    obtain ⟨_, _, ring⟩ := source w hw
    cases ring.symm.trans same
  have inside := Params.acc_lt_rspace inUse
  have step := writes_freqToRing (s := t) (r := s.params.acc slot) (before.params ▸ legal)
    (before.params ▸ inside) (s.params.tmpf slot)
  rw [before.params, before.tsh, before.freqElem_eq legal (Params.tmpf_lt_fspace inUse) noFreq] at step
  rw [before.params]
  exact step

end

/-- Before the first row every sum is 0. -/
theorem rowSums_zero (s : State) (slot : Nat) :
    rowSums s 0 slot = Calc.exact (List.replicate s.params.l Cplx.zero) := by
  refine Calc.ext_iff.2 ⟨?_, ?_⟩
  · rw [rowSums, Calc.each_val]
    exact List.map_const'.trans (by rw [List.length_range]; rfl)
  · rw [rowSums, Calc.each_ovf]
    simp [rowSum, Calc.loop]

/-- The products that the next row adds to a slot (43_extprod.md R120). -/
def nextRowSums (s : State) (n slot : Nat) : Calc (List Cplx) :=
  macEntries s.params s.psh (rowSums s n slot).val (s.freqElem (s.params.digf n)) (s.freqElem (s.params.gswf n slot))

theorem nextRowSums_eq (s : State) (n slot : Nat) : nextRowSums s n slot
    = Calc.each (fun e => mac s.params.dw s.psh (rowSum s n slot e).val (s.freqEntry (s.params.digf n) e)
        (s.freqEntry (s.params.gswf n slot) e)) (List.range s.params.l) := by
  refine Calc.each_congr fun e mem => ?_
  have he := List.mem_range.1 mem
  rw [getD_freqElem _ _ _ _ he, getD_freqElem _ _ _ _ he, rowSums, Calc.each_val]
  congr 1
  rw [List.getD_eq_getElem _ _ (by simpa using he)]
  simp

theorem rowSum_succ (s : State) (n slot e : Nat) : rowSum s (n + 1) slot e = (rowSum s n slot e).andThen fun x =>
    mac s.params.dw s.psh x (s.freqEntry (s.params.digf n) e) (s.freqEntry (s.params.gswf n slot) e) :=
  Calc.loop_range_succ _ _ n

/-- The sums after the next row are its products added to the sums before, whose overflow they keep. -/
theorem rowSums_succ (s : State) (n slot : Nat) : (rowSums s (n + 1) slot).val = (nextRowSums s n slot).val
    ∧ (rowSums s (n + 1) slot).ovf = ((rowSums s n slot).ovf || (nextRowSums s n slot).ovf) := by
  rw [nextRowSums_eq, rowSums, rowSums]
  constructor
  · simp only [Calc.each_val, rowSum_succ, Calc.andThen_val]
  · simp only [Calc.each_ovf, rowSum_succ, Calc.andThen_ovf]
    rw [Bool.eq_iff_iff]
    simp only [List.any_eq_true, Bool.or_eq_true, and_or_left, exists_or]

/-- The temporary accumulator after n rows. -/
def tmpWrites (s : State) (n : Nat) : List ElemWrite :=
  (List.range (s.k + 1)).map fun slot => .freq (s.params.tmpf slot) (rowSums s n slot).val

/-- One row of the multiply-accumulate: every slot in turn (43_extprod.md R120). -/
def accumulateRow (t : State) (slots row : Nat) : Calc State :=
  Calc.loop (fun u slot => multiplyAccumulate (u.params.tmpf slot) (u.params.digf row) (u.params.gswf row slot) u) t
    (List.range slots)

theorem accumulateRows_eq (s : State) :
    accumulateRows s = Calc.loop (fun t row => accumulateRow t (s.k + 1) row) s (List.range s.kpl) := by
  simp only [accumulateRows, rowSlots, Calc.loop_flatMap, Calc.loop_map_list]
  rfl

section
include legal cfgLegal

/-- A row adds its products to what the rows before it have summed. -/
theorem writes_accumulateRow {n : Nat} (hn : n < s.kpl) {t : State} (before : Performs (tmpWrites s n) s t) : Writes
    ⟨tmpWrites s (n + 1), (List.range (s.k + 1)).any fun slot => (nextRowSums s n slot).ovf⟩ t
    (accumulateRow t (s.k + 1) n) := by
  have row := hn.trans_le (kpl_le_kplMax cfgLegal)
  have list : tmpWrites s (n + 1)
      = (List.range (s.k + 1)).map fun slot => .freq (s.params.tmpf slot) (nextRowSums s n slot).val := by
    simp only [tmpWrites, rowSums_succ]
  have tmp : ∀ w ∈ tmpWrites s n, ∃ slot, w.elem = .freq (s.params.tmpf slot) := fun w hw => by
    obtain ⟨slot, -, rfl⟩ := List.mem_map.1 hw
    exact ⟨slot, rfl⟩
  rw [list]
  refine loop_writes_single (elem := fun slot => .freq (s.params.tmpf slot))
    (contents := nextRowSums s n) (write := fun slot => .freq (s.params.tmpf slot)) (before.params ▸ legal)
    List.nodup_range (fun _ _ => rfl) (fun slot _ slot' _ same => Nat.add_left_cancel (Elem.freq.inj same)) ?_
  intro slot mem ws u within source other
  have inUse : slot ≤ s.params.kMax := (Nat.lt_succ_iff.1 (List.mem_range.1 mem)).trans (k_le_kMax cfgLegal)
  have tmpExists := Params.tmpf_lt_fspace (p := s.params) inUse
  have keeps {f : Nat} (hf : f < s.params.fspace) (below : ∀ slot', f < s.params.tmpf slot') :
      u.freqElem f = s.freqElem f := by
    refine (within.freqElem_eq (before.params ▸ legal) (before.params ▸ hf) fun w hw same => ?_).trans
      (before.freqElem_eq legal hf fun w hw same => ?_)
    · obtain ⟨slot', _, freq⟩ := source w hw
      exact (below slot').ne (Elem.freq.inj (same.symm.trans freq))
    · obtain ⟨slot', freq⟩ := tmp w hw
      exact (below slot').ne (Elem.freq.inj (same.symm.trans freq))
  have sums : u.freqElem (s.params.tmpf slot) = (rowSums s n slot).val :=
    (within.freqElem_eq (before.params ▸ legal) (before.params ▸ tmpExists) other).trans
      (before.stands _ (List.mem_map.2 ⟨slot, mem, rfl⟩))
  have digits := keeps (Params.digf_lt_fspace row) fun slot' => Params.digf_lt_tmpf row
  have store := keeps (Params.gswf_lt_fspace row inUse) fun slot' =>
    (Params.gswf_lt_digf (row' := n) row inUse).trans (Params.digf_lt_tmpf row)
  have params := within.params.trans before.params
  have step := writes_multiplyAccumulate (s := u) (d := s.params.tmpf slot) (params ▸ legal) (params ▸ tmpExists)
    (s.params.digf n) (s.params.gswf n slot)
  rw [sums, digits, store, params, within.psh, before.psh] at step
  rw [params]
  exact step

/-- After n rows from a cleared accumulator every slot holds its sum, and an overflow of any is recorded. -/
theorem performs_accumulateRows {n : Nat} (hn : n ≤ s.kpl) :
    let c := Calc.loop (fun t row => accumulateRow t (s.k + 1) row) (clearTmp s) (List.range n)
    Performs (tmpWrites s n) s c.val
      ∧ c.ovf = (List.range (s.k + 1)).any fun slot => (rowSums s n slot).ovf := by
  induction n with
  | zero =>
    have cleared := (writes_clearTmp legal cfgLegal).performs
    simp only [tmpWrites, rowSums_zero]
    exact ⟨cleared, by simp [Calc.loop]⟩
  | succ n ih =>
    obtain ⟨before, ovf⟩ := ih (Nat.le_of_succ_le hn)
    have row := writes_accumulateRow legal cfgLegal hn before
    rw [Calc.loop_range_succ]
    refine ⟨before.overwrite row.performs fun w hw => ?_, ?_⟩
    · obtain ⟨slot, mem, rfl⟩ := List.mem_map.1 hw
      exact ⟨_, List.mem_map.2 ⟨slot, mem, rfl⟩, rfl⟩
    · rw [Calc.andThen_ovf, ovf, row.ovf, Bool.eq_iff_iff]
      simp only [(rowSums_succ s n _).2, List.any_eq_true, Bool.or_eq_true, and_or_left, exists_or]

/-- Step 3 leaves the sums over all rows in the temporary accumulator. -/
theorem writes_accumulateRows : Writes
    ⟨tmpWrites s s.kpl, (List.range (s.k + 1)).any fun slot => (rowSums s s.kpl slot).ovf⟩ s
    (accumulateRows (clearTmp s)) := by
  have cleared := (writes_clearTmp legal cfgLegal).performs
  have k : (clearTmp s).k = s.k := cleared.k
  have kpl : (clearTmp s).kpl = s.kpl := cleared.kpl
  obtain ⟨performs, ovf⟩ := performs_accumulateRows legal cfgLegal le_rfl
  rw [accumulateRows_eq, k, kpl]
  exact ⟨performs, ovf⟩

end

/-- The states between the four steps of the external product, and what each step writes (43_extprod.md R120). -/
structure ProductSteps (s t1 t2 t3 : State) (out : Calc State) : Prop where
  digits : Performs (accDigits s) s t1
  spectra : Performs ((List.range s.kpl).map fun row => .freq (s.params.digf row) (digitSpectrum t1 row).val) t1 t2
  sums : Performs (tmpWrites t2 s.kpl) t2 t3
  results : Performs ((List.range (s.k + 1)).map fun slot => .ring (s.params.acc slot) (ringResult t3 slot).val) t3 out.val
  ovf : out.ovf = (((List.range s.kpl).any fun row => (digitSpectrum t1 row).ovf)
    || ((List.range (s.k + 1)).any fun slot => (rowSums t2 s.kpl slot).ovf)
    || (List.range (s.k + 1)).any fun slot => (ringResult t3 slot).ovf)

include legal cfgLegal in
theorem productSteps_externalProduct : ∃ t1 t2 t3, ProductSteps s t1 t2 t3 (externalProduct s) := by
  have digits : Performs (accDigits s) s (decomposeAcc s) := (writes_decomposeAcc legal cfgLegal).performs
  have legal1 := (congrArg Params.legal digits.params).trans legal
  have cfgLegal1 := digits.cfgLegal.trans cfgLegal
  have spectra := writes_transformDigits legal1 cfgLegal1
  have legal2 := (congrArg Params.legal spectra.performs.params).trans legal1
  have cfgLegal2 := spectra.performs.cfgLegal.trans cfgLegal1
  have kpl2 := spectra.performs.kpl.trans digits.kpl
  have k2 := spectra.performs.k.trans digits.k
  have sums := writes_accumulateRows legal2 cfgLegal2
  have legal3 := (congrArg Params.legal sums.performs.params).trans legal2
  have cfgLegal3 := sums.performs.cfgLegal.trans cfgLegal2
  have k3 := sums.performs.k.trans k2
  have params3 := sums.performs.params.trans (spectra.performs.params.trans digits.params)
  have results := writes_convertBack legal3 cfgLegal3
  rw [digits.kpl, digits.params] at spectra
  rw [k2, kpl2] at sums
  rw [k3, params3] at results
  have val : (externalProduct s).val
      = (convertBack (accumulateRows (clearTmp (transformDigits (decomposeAcc s)).val)).val).val := by
    simp only [externalProduct, Calc.andThen_val, Calc.exact_val]
  refine ⟨_, _, _, digits, spectra.performs, sums.performs, by rw [val]; exact results.performs, ?_⟩
  simp only [externalProduct, Calc.andThen_ovf, Calc.andThen_val, Calc.exact_val, Calc.exact_ovf, Bool.or_false,
    spectra.ovf, sums.ovf, results.ovf]

end

end Sys2Proof.Machine
end

section
/-! PROOFS. The external product as one sequence of writes, and what it reads from the state it leaves (43_extprod.md
R120, R121). -/

namespace Sys2Proof

theorem Calc.loop_congr {α β : Type} {f g : β → α → Calc β} {l : List α} (h : ∀ x ∈ l, ∀ b, f b x = g b x) (b : β) :
    Calc.loop f b l = Calc.loop g b l := by
  induction l generalizing b with
  | nil => rfl
  | cons x xs ih =>
    rw [Calc.loop, Calc.loop, h x List.mem_cons_self b, ih fun y mem => h y (List.mem_cons_of_mem x mem)]

end Sys2Proof

namespace Sys2Proof.Machine

theorem mem_accDigits {s : State} {w : ElemWrite} : w ∈ accDigits s ↔ ∃ i ≤ s.k, ∃ j < s.ell,
    w = .ring (s.params.digr (i * s.ell + j)) (digitWords s.ell s.bgbit (s.ringElem (s.params.acc i)) j) := by
  simp only [accDigits, List.mem_flatMap, List.mem_range, Nat.lt_succ_iff, mem_digitWrites, digr_add]

/-- Equal elements have equal entries. -/
theorem freqEntry_eq_of_freqElem_eq {s t : State} {f g : Nat} (params : t.params = s.params)
    (same : t.freqElem f = s.freqElem g) {e : Nat} (he : e < s.params.l) : t.freqEntry f e = s.freqEntry g e := by
  rw [← getD_freqElem s g e Cplx.zero he, ← same, getD_freqElem t f e Cplx.zero (params ▸ he)]

/-- All writes of the external product: digits, spectra, sums and results. -/
def productWrites (s t1 t2 t3 : State) : List ElemWrite :=
  accDigits s ++ (((List.range s.kpl).map fun row => .freq (s.params.digf row) (digitSpectrum t1 row).val)
    ++ (tmpWrites t2 s.kpl ++ (List.range (s.k + 1)).map fun slot => .ring (s.params.acc slot) (ringResult t3 slot).val))

namespace ProductSteps

section
variable {s t1 t2 t3 : State} {out : Calc State} (h : ProductSteps s t1 t2 t3 out)
include h

theorem params2 : t2.params = s.params := h.spectra.params.trans h.digits.params

theorem k2 : t2.k = s.k := h.spectra.k.trans h.digits.k

theorem mem_sums {w : ElemWrite} : w ∈ tmpWrites t2 s.kpl ↔ ∃ slot ≤ s.k,
    w = .freq (s.params.tmpf slot) (rowSums t2 s.kpl slot).val := by
  simp only [tmpWrites, h.params2, h.k2, List.mem_map, List.mem_range, Nat.lt_succ_iff, eq_comm]

variable (legal : s.params.legal = true) (cfgLegal : s.cfgLegal = true)
include legal

theorem performs_from_sums : Performs (tmpWrites t2 s.kpl
    ++ (List.range (s.k + 1)).map fun slot => .ring (s.params.acc slot) (ringResult t3 slot).val) t2 out.val := by
  refine h.sums.append h.results (h.params2 ▸ legal) fun w hw v hv same => ?_
  obtain ⟨slot, -, rfl⟩ := h.mem_sums.1 hw
  obtain ⟨slot', -, rfl⟩ := List.mem_map.1 hv
  cases same

include cfgLegal

theorem performs_from_spectra : Performs (((List.range s.kpl).map fun row =>
    .freq (s.params.digf row) (digitSpectrum t1 row).val) ++ (tmpWrites t2 s.kpl
      ++ (List.range (s.k + 1)).map fun slot => .ring (s.params.acc slot) (ringResult t3 slot).val)) t1 out.val := by
  refine h.spectra.append (h.performs_from_sums legal) (h.digits.params ▸ legal) fun w hw v hv same => ?_
  obtain ⟨row, mem, rfl⟩ := List.mem_map.1 hw
  have inUse := (List.mem_range.1 mem).trans_le (kpl_le_kplMax cfgLegal)
  rcases List.mem_append.1 hv with hv | hv
  · obtain ⟨slot, -, rfl⟩ := h.mem_sums.1 hv
    exact (Params.digf_lt_tmpf inUse).ne' (Elem.freq.inj same)
  · obtain ⟨slot, -, rfl⟩ := List.mem_map.1 hv
    cases same

/-- The four steps write different elements. -/
theorem performs : Performs (productWrites s t1 t2 t3) s out.val := by
  refine h.digits.append (h.performs_from_spectra legal cfgLegal) legal fun w hw v hv same => ?_
  obtain ⟨i, -, j, -, rfl⟩ := mem_accDigits.1 hw
  rcases List.mem_append.1 hv with hv | hv
  · obtain ⟨row, -, rfl⟩ := List.mem_map.1 hv
    cases same
  · rcases List.mem_append.1 hv with hv | hv
    · obtain ⟨slot, -, rfl⟩ := h.mem_sums.1 hv
      cases same
    · obtain ⟨slot, mem, rfl⟩ := List.mem_map.1 hv
      have inUse : slot ≤ s.params.kMax := (Nat.lt_succ_iff.1 (List.mem_range.1 mem)).trans (k_le_kMax cfgLegal)
      exact (Params.acc_lt_digr inUse).ne (Elem.ring.inj same)

/-- The digit spectra are those of the digits left in memory. -/
theorem digitSpectrum_eq {row : Nat} (hrow : row < s.kpl) :
    digitSpectrum t1 row = r2f s.params s.dsh (out.val.ringElem (s.params.digr row)) := by
  have after := h.performs_from_spectra legal cfgLegal
  have inside := Params.digr_lt_rspace (hrow.trans_le (kpl_le_kplMax cfgLegal))
  rw [digitSpectrum, h.digits.params, h.digits.dsh, after.ringElem_eq (h.digits.params ▸ legal)
    (h.digits.params ▸ inside) fun w hw same => ?_]
  rcases List.mem_append.1 hw with hw | hw
  · obtain ⟨row', -, rfl⟩ := List.mem_map.1 hw
    cases same
  · rcases List.mem_append.1 hw with hw | hw
    · obtain ⟨slot, -, rfl⟩ := h.mem_sums.1 hw
      cases same
    · obtain ⟨slot, mem, rfl⟩ := List.mem_map.1 hw
      have inUse : slot ≤ s.params.kMax := (Nat.lt_succ_iff.1 (List.mem_range.1 mem)).trans (k_le_kMax cfgLegal)
      exact (Params.acc_lt_digr inUse).ne (Elem.ring.inj same)

/-- The sums are those of the digit spectra left in memory with the store before the command. -/
theorem rowSum_eq {slot e : Nat} (hslot : slot ≤ s.k) (he : e < s.params.l) : rowSum t2 s.kpl slot e
    = Calc.loop (fun x row => mac s.params.dw s.psh x (out.val.freqEntry (s.params.digf row) e)
        (s.freqEntry (s.params.gswf row slot) e)) ⟨0, 0⟩ (List.range s.kpl) := by
  have before := h.digits.append h.spectra legal fun w hw v hv same => by
    obtain ⟨i, -, j, -, rfl⟩ := mem_accDigits.1 hw
    obtain ⟨row, -, rfl⟩ := List.mem_map.1 hv
    cases same
  have after := h.performs_from_sums legal
  refine Calc.loop_congr (fun row mem x => ?_) _
  have inUse := (List.mem_range.1 mem).trans_le (kpl_le_kplMax cfgLegal)
  have slotInUse := hslot.trans (k_le_kMax cfgLegal)
  have digfExists := Params.digf_lt_fspace inUse
  have spectrum : out.val.freqElem (s.params.digf row) = t2.freqElem (s.params.digf row) :=
    after.freqElem_eq (h.params2 ▸ legal) (h.params2 ▸ digfExists) fun w hw same => by
      rcases List.mem_append.1 hw with hw | hw
      · obtain ⟨slot', -, rfl⟩ := h.mem_sums.1 hw
        exact (Params.digf_lt_tmpf inUse).ne' (Elem.freq.inj same)
      · obtain ⟨slot', -, rfl⟩ := List.mem_map.1 hw
        cases same
  have store : t2.freqElem (s.params.gswf row slot) = s.freqElem (s.params.gswf row slot) :=
    before.freqElem_eq legal (Params.gswf_lt_fspace inUse slotInUse) fun w hw same => by
      rcases List.mem_append.1 hw with hw | hw
      · obtain ⟨i, -, j, -, rfl⟩ := mem_accDigits.1 hw
        cases same
      · obtain ⟨row', -, rfl⟩ := List.mem_map.1 hw
        exact (Params.gswf_lt_digf inUse slotInUse).ne' (Elem.freq.inj same)
  rw [h.params2, h.spectra.psh, h.digits.psh, freqEntry_eq_of_freqElem_eq before.params store he,
    freqEntry_eq_of_freqElem_eq after.params spectrum (h.params2 ▸ he)]

/-- The results are the ring forms of the sums left in memory. -/
theorem ringResult_eq {slot : Nat} (hslot : slot ≤ s.k) :
    ringResult t3 slot = f2r s.params s.tsh (out.val.freqElem (s.params.tmpf slot)) := by
  have params3 := h.sums.params.trans h.params2
  have inside := Params.tmpf_lt_fspace (hslot.trans (k_le_kMax cfgLegal))
  rw [ringResult, params3, h.sums.tsh, h.spectra.tsh, h.digits.tsh, h.results.freqElem_eq (params3 ▸ legal)
    (params3 ▸ inside) fun w hw same => ?_]
  obtain ⟨slot', -, rfl⟩ := List.mem_map.1 hw
  cases same

end

end ProductSteps

end Sys2Proof.Machine
end

section
/-! PROOFS. Memory stays in canonical form (20_memory.md R49, R52; notes/assumptions/3.md). -/

namespace Sys2Proof.Machine

theorem badId_eq_false_iff (i : Instr) (s : State) : badId i s = false ↔
    (∀ f ∈ i.freqOperands, f.toNat < s.params.fspace) ∧ (∀ r ∈ i.ringOperands, r.toNat < s.params.rspace)
      ∧ ∀ r ∈ i.runOperands, r.toNat + s.ell - 1 < s.params.rspace := by
  simp [badId, and_assoc]

/-- The effect of an accepted command keeps memory in canonical form. -/
theorem memOk_effect {i : Instr} {s : State} (legal : s.params.legal = true) (passes : check i s = none)
    (h : s.memOk) : (effect i s).val.memOk := by
  obtain ⟨cfg, ids, -, -⟩ := (check_eq_none i s).1 passes
  obtain ⟨freq, ring, run⟩ := (badId_eq_false_iff i s).1 ids
  cases i with
  | nop => exact h
  | fftFwd f => exact (writes_transformInPlace legal .fwd (freq f List.mem_cons_self)).performs.memOk h
  | fftInv f => exact (writes_transformInPlace legal .inv (freq f List.mem_cons_self)).performs.memOk h
  | r2fT f r => exact (writes_ringToFreq legal (freq f List.mem_cons_self) r.toNat s.tsh).performs.memOk h
  | r2fI f r => exact (writes_ringToFreq legal (freq f List.mem_cons_self) r.toNat s.dsh).performs.memOk h
  | f2r r f => exact (writes_freqToRing legal (ring r List.mem_cons_self) f.toNat).performs.memOk h
  | fclear f => exact (writes_clearFreq legal (freq f List.mem_cons_self)).performs.memOk h
  | faddc f => exact (writes_addConst legal (freq f List.mem_cons_self) s.const).performs.memOk h
  | fmac d a b => exact (writes_multiplyAccumulate legal (freq d List.mem_cons_self) a.toNat b.toNat).performs.memOk h
  | decomp r a =>
    have last := run r List.mem_cons_self
    exact (writes_decompose legal (fun j hj => by omega) a.toNat).performs.memOk h
  | gswAlloc => exact h
  | gswFree => exact h
  | gswClear => exact (writes_clearStore legal (cfg rfl)).performs.memOk h
  | gswAddg => exact (writes_addGadget legal (cfg rfl)).performs.memOk h
  | gswTof => exact (writes_storeToFreq legal (cfg rfl)).performs.memOk h
  | gswFromf => exact (writes_storeToRing legal (cfg rfl)).performs.memOk h
  | extprod =>
    obtain ⟨t1, t2, t3, steps⟩ := productSteps_externalProduct legal (cfg rfl)
    exact (steps.performs legal (cfg rfl)).memOk h

theorem keptByMoves_memOk : KeptByMoves State.memOk where
  respond _ h := h
  busError _ h := h
  setCfg _ h _ := h
  setShift _ h _ := h
  setConst _ h _ := h
  acknowledge _ h := h
  setIrqEn _ h := h
  overrun h := h
  refuse _ _ h _ := h
  accept _ h _ _ := h
  store _ w h _ legal memory := memOk_storeHeld legal h memory w
  setAgenda _ h := h
  fails _ h := h
  completes {s} _ h legal passes := memOk_effect (s := withdraw s) legal passes h
  reset s := memOk_afterReset s.params (s.epoch + 1)

/-- Settles O28: a host write stores the word as memory holds it, a command writes whole elements of DW-bit entries. -/
theorem stepKeepsMemoryCanonical : Obligations.StepKeepsMemoryCanonical := fun _ _ => step_keeps keptByMoves_memOk

end Sys2Proof.Machine
end

section
/-! PROOFS. The completion of a command whose effect is a list of element writes (60_exceptions.md R132). -/

namespace Sys2Proof.Machine

/-- What an element reads depends on memory, the synthesis parameters and the count of resets. -/
theorem ElemWrite.Stands.congr {w : ElemWrite} {s t : State} (mem : t.mem = s.mem) (params : t.params = s.params)
    (epoch : t.epoch = s.epoch) (h : w.Stands s) : w.Stands t := by
  have word (a : Nat) : t.word a = s.word a := by
    rw [State.word, State.word, State.wordIn, State.wordIn, mem, params, epoch]
  cases w with
  | ring r ws =>
    refine Eq.trans ?_ h
    have coef : t.ringCoef r = s.ringCoef r := funext fun c => by simp only [State.ringCoef, word, params]
    simp only [ringElem_eq_map, coef, params]
  | freq f es =>
    refine Eq.trans ?_ h
    have entry : t.freqEntry f = s.freqEntry f := funext fun j => by simp only [freqEntry_eq, word, params]
    simp only [freqElem_eq_map, entry, params]

/-- Command `i` completes in `t`, having made the writes of `c` with the overflow of `c`. -/
structure CompletesWith (i : Instr) (c : Calc (List ElemWrite)) (s t : State) : Prop where
  runs : exec i s = .next t
  stands : ∀ w ∈ c.val, w.Stands t
  ovf : t.ovf = (s.ovf || c.ovf)
  completed : Completed s t
  unchanged : ∀ a, (∀ w ∈ c.val, ¬ w.elem.Covers s.params a) → t.word a = s.word a

/-- A command that passes its checks and whose effect leaves the memory of `out` completes with the writes of `out`. -/
theorem completesWith_of_writes {i : Instr} {s : State} {c : Calc (List ElemWrite)} {out : Calc State}
    (passes : check i s = none) (h : Writes c s out) (mem : (effect i s).val.mem = out.val.mem)
    (ovf : (effect i s).ovf = out.ovf) : CompletesWith i c s (finish (effect i s)) := by
  have completed := completed_finish_effect i s
  obtain ⟨m, g, shape, touched⟩ := effect_touches i s
  obtain ⟨m', same⟩ := h.performs.onlyMem
  have params : (finish (effect i s)).params = out.val.params := completed.params.trans h.performs.params.symm
  have epoch : (finish (effect i s)).epoch = out.val.epoch := completed.epoch.trans (by rw [same])
  refine ⟨exec_of_check_eq_none passes, fun w hw => (h.performs.stands w hw).congr mem params epoch, ?_, completed,
    fun a outside => Eq.trans ?_ (h.performs.unchanged a outside)⟩
  · rw [finish_ovf, ovf, h.ovf, touched]
  · rw [State.word, State.word, State.wordIn, State.wordIn, params, epoch, finish_mem, mem]

/-- A command that touches memory alone. -/
theorem completesWith_of_effect {i : Instr} {s : State} {c : Calc (List ElemWrite)} (passes : check i s = none)
    (h : Writes c s (effect i s)) :
    CompletesWith i c s (finish (effect i s)) ∧ SameStore s (finish (effect i s)) :=
  ⟨completesWith_of_writes passes h rfl rfl, h.performs.onlyMem.sameStore⟩

namespace CompletesWith

section
variable {i : Instr} {c : Calc (List ElemWrite)} {s t : State} (h : CompletesWith i c s t)
include h

theorem sameMemoryBut (rings freqs : List Nat) (ring : ∀ r ws, .ring r ws ∈ c.val → r ∈ rings)
    (freq : ∀ f es, .freq f es ∈ c.val → f ∈ freqs) : SameMemoryBut rings freqs s t := by
  refine fun a noRing noFreq => h.unchanged a fun w mem => ?_
  cases w with
  | ring r ws => exact noRing r (ring r ws mem)
  | freq f es => exact noFreq f (freq f es mem)

theorem freqEntry_eq {f : Nat} {es : List Cplx} (written : .freq f es ∈ c.val) {j : Nat} (hj : j < s.params.l) :
    t.freqEntry f j = es.getD j Cplx.zero := by
  rw [← h.stands _ written, getD_freqElem t f j Cplx.zero (h.completed.params ▸ hj)]

theorem ringCoef_eq {r : Nat} {ws : List Word} (written : .ring r ws ∈ c.val) {j : Nat} (hj : j < s.params.n) :
    t.ringCoef r j = ws.getD j 0 := by
  rw [← h.stands _ written, getD_ringElem t r j 0 (h.completed.params ▸ hj)]

end

section
variable {α : Type} {i : Instr} {s t : State} {l : List α} {id : α → Nat} {raised : Bool}

theorem sameMemoryBut_of_freqs {contents : α → List Cplx}
    (h : CompletesWith i ⟨l.map fun x => .freq (id x) (contents x), raised⟩ s t) :
    SameMemoryBut [] (l.map id) s t := by
  refine h.sameMemoryBut _ _ (fun r ws mem => ?_) fun f es mem => ?_
  · obtain ⟨x, -, same⟩ := List.mem_map.1 mem
    cases same
  · obtain ⟨x, inUse, same⟩ := List.mem_map.1 mem
    injection same with same
    exact List.mem_map.2 ⟨x, inUse, same⟩

theorem sameMemoryBut_of_rings {contents : α → List Word}
    (h : CompletesWith i ⟨l.map fun x => .ring (id x) (contents x), raised⟩ s t) :
    SameMemoryBut (l.map id) [] s t := by
  refine h.sameMemoryBut _ _ (fun r ws mem => ?_) fun f es mem => ?_
  · obtain ⟨x, inUse, same⟩ := List.mem_map.1 mem
    injection same with same
    exact List.mem_map.2 ⟨x, inUse, same⟩
  · obtain ⟨x, -, same⟩ := List.mem_map.1 mem
    cases same

end

end CompletesWith

/-- A command that writes one frequency element. -/
theorem completes_setFreq {i : Instr} {s : State} {f : Nat} {y : Calc (List Cplx)} (passes : check i s = none)
    (h : Writes (y.map fun es => [.freq f es]) s (effect i s)) : ∃ t, exec i s = .next t ∧ t.freqElem f = y.val
      ∧ t.ovf = (s.ovf || y.ovf) ∧ Completed s t ∧ SameStore s t ∧ SameMemoryBut [] [f] s t := by
  obtain ⟨completes, store⟩ := completesWith_of_effect passes h
  exact ⟨_, completes.runs, completes.stands (.freq f y.val) List.mem_cons_self, completes.ovf, completes.completed,
    store, completes.sameMemoryBut _ _ (by simp) (by simp)⟩

/-- A command that writes one ring element. -/
theorem completes_setRing {i : Instr} {s : State} {r : Nat} {y : Calc (List Word)} (passes : check i s = none)
    (h : Writes (y.map fun ws => [.ring r ws]) s (effect i s)) : ∃ t, exec i s = .next t ∧ t.ringElem r = y.val
      ∧ t.ovf = (s.ovf || y.ovf) ∧ Completed s t ∧ SameStore s t ∧ SameMemoryBut [r] [] s t := by
  obtain ⟨completes, store⟩ := completesWith_of_effect passes h
  exact ⟨_, completes.runs, completes.stands (.ring r y.val) List.mem_cons_self, completes.ovf, completes.completed,
    store, completes.sameMemoryBut _ _ (by simp) (by simp)⟩

/-- A command that consults CFG and its operands alone passes its checks (60_exceptions.md R127). -/
theorem check_of_operands {i : Instr} {s : State} (cfgLegal : s.cfgLegal = true)
    (freq : ∀ f ∈ i.freqOperands, f.toNat < s.params.fspace) (ring : ∀ r ∈ i.ringOperands, r.toNat < s.params.rspace)
    (run : ∀ r ∈ i.runOperands, r.toNat + s.ell - 1 < s.params.rspace) (state : stateAllows i s.gswState = true)
    (noShape : needsShape i = false) : check i s = none :=
  (check_eq_none i s).2 ⟨fun _ => cfgLegal, (badId_eq_false_iff i s).2 ⟨freq, ring, run⟩, state,
    fun needs => absurd (noShape.symm.trans needs) Bool.false_ne_true⟩

/-- A command on the store without operands passes its checks in a state that allows it (42_gsw.md R108, R109). -/
theorem check_of_store {i : Instr} {s : State} (cfgLegal : s.cfgLegal = true) (noOperands : badId i s = false)
    (state : stateAllows i s.gswState = true) (shape : s.shape = s.cfg) : check i s = none :=
  (check_eq_none i s).2 ⟨fun _ => cfgLegal, noOperands, state, fun _ => shape⟩

/-- A constructed store allows GSW_CLEAR and GSW_TOF. -/
theorem stateAllows_of_constructed {i : Instr} {g : GswState} (lifecycle : i = .gswClear ∨ i = .gswTof)
    (constructed : g ≠ .free) : stateAllows i g = true := by
  cases g with
  | free => exact absurd rfl constructed
  | alloc => rcases lifecycle with rfl | rfl <;> rfl
  | ready => rcases lifecycle with rfl | rfl <;> rfl

end Sys2Proof.Machine
end

section
/-! PROOFS. The completion of the commands on single elements (40_transform.md R86, R87; 41_frequency.md R96 to R101;
42_gsw.md R110). -/

namespace Sys2Proof.Machine

/-- Settles O15: the command writes FREQ[f] once, with its transform. -/
theorem transformCommandsComplete : Obligations.TransformCommandsComplete := by
  intro s f dir legal cfgLegal hf
  cases dir with
  | fwd =>
    exact completes_setFreq (check_of_operands (i := .fftFwd f) cfgLegal (by simpa [Instr.freqOperands] using hf) nofun
      nofun rfl rfl) (writes_transformInPlace legal .fwd hf)
  | inv =>
    exact completes_setFreq (check_of_operands (i := .fftInv f) cfgLegal (by simpa [Instr.freqOperands] using hf) nofun
      nofun rfl rfl) (writes_transformInPlace legal .inv hf)

/-- Settles O16: the command writes FREQ[f] once, with the spectrum of RING[r] at its scale. -/
theorem ringToFrequencyCompletes : Obligations.RingToFrequencyCompletes := by
  intro s f r legal cfgLegal hf hr i sh form
  rcases form with ⟨rfl, rfl⟩ | ⟨rfl, rfl⟩
  · exact completes_setFreq (check_of_operands cfgLegal (by simpa [Instr.freqOperands] using hf)
      (by simpa [Instr.ringOperands] using hr) nofun rfl rfl) (writes_ringToFreq legal hf r.toNat s.tsh)
  · exact completes_setFreq (check_of_operands cfgLegal (by simpa [Instr.freqOperands] using hf)
      (by simpa [Instr.ringOperands] using hr) nofun rfl rfl) (writes_ringToFreq legal hf r.toNat s.dsh)

theorem check_f2r {s : State} {r : RingId} {f : FreqId} (cfgLegal : s.cfgLegal = true)
    (hr : r.toNat < s.params.rspace) (hf : f.toNat < s.params.fspace) : check (.f2r r f) s = none :=
  check_of_operands cfgLegal (by simpa [Instr.freqOperands] using hf) (by simpa [Instr.ringOperands] using hr) nofun
    rfl rfl

/-- Settles O17: the command writes RING[r] once, with the ring form of FREQ[f]. -/
theorem frequencyToRingCompletes : Obligations.FrequencyToRingCompletes := by
  intro s r f legal cfgLegal hr hf
  exact completes_setRing (check_f2r cfgLegal hr hf) (writes_freqToRing legal hr f.toNat)

theorem check_fclear {s : State} {f : FreqId} (cfgLegal : s.cfgLegal = true) (hf : f.toNat < s.params.fspace) :
    check (.fclear f) s = none :=
  check_of_operands cfgLegal (by simpa [Instr.freqOperands] using hf) nofun nofun rfl rfl

/-- FCLEAR leaves the zero spectrum (41_frequency.md R99). -/
theorem fclear_completes {s : State} {f : FreqId} (legal : s.params.legal = true) (cfgLegal : s.cfgLegal = true)
    (hf : f.toNat < s.params.fspace) : ∃ t, exec (.fclear f) s = .next t
      ∧ t.freqElem f.toNat = List.replicate s.params.l Cplx.zero ∧ t.ovf = (s.ovf || false)
      ∧ Completed s t ∧ SameStore s t ∧ SameMemoryBut [] [f.toNat] s t :=
  completes_setFreq (y := Calc.exact (List.replicate s.params.l Cplx.zero)) (check_fclear cfgLegal hf)
    (writes_clearFreq legal hf)

/-- An entry of an element known as a list. -/
theorem freqEntry_of_freqElem_eq {s t : State} {f : Nat} {es : List Cplx} (params : t.params = s.params)
    (elem : t.freqElem f = es) {j : Nat} (hj : j < s.params.l) : t.freqEntry f j = es.getD j Cplx.zero := by
  rw [← elem, getD_freqElem t f j Cplx.zero (params ▸ hj)]

/-- Settles O18: the command writes FREQ[f] once, with zeros. -/
theorem fclearCompletes : Obligations.FclearCompletes := by
  intro s f legal cfgLegal hf
  obtain ⟨t, runs, elem, ovf, completed, store, frame⟩ := fclear_completes legal cfgLegal hf
  refine ⟨t, runs, fun j hj => ?_, ovf.trans (Bool.or_false _), completed, store, frame⟩
  rw [freqEntry_of_freqElem_eq completed.params elem hj, List.getD_replicate _ hj]
  rfl

section
variable (s : State) (f : Nat) (k : Int)

theorem addedEach_freqElem_val {j : Nat} (hj : j < s.params.l) :
    (addedEach s.params.dw k (s.freqElem f)).val.getD j Cplx.zero
      = ⟨sext s.params.dw ((s.freqEntry f j).re + k), (s.freqEntry f j).im⟩ := by
  rw [addedEach, Calc.each_val, freqElem_eq_map, List.getD_eq_getElem _ _ (by simpa using hj)]
  simp [addw]

theorem addedEach_freqElem_ovf : (addedEach s.params.dw k (s.freqElem f)).ovf = true
    ↔ ∃ j < s.params.l, inRange s.params.dw ((s.freqEntry f j).re + k) = false := by
  rw [addedEach, Calc.each_ovf, freqElem_eq_map, List.any_eq_true]
  simp [addw]

end

/-- A torus constant at a legal scale is added exactly as it is (41_frequency.md R100). -/
theorem addedConst_of_legal {p : Params} (legal : p.legal = true) {tsh : Nat} (small : tsh ≤ p.dw - 33) (c : Word)
    (es : List Cplx) : addedConst p tsh c es = addedEach p.dw (signed32 c * 2 ^ tsh) es := by
  obtain ⟨dw_ge, -⟩ := legal_dw legal
  have fits := inRange_signed32_mul_two_pow (show tsh + 32 ≤ p.dw by omega) c
  have exact_eq : fit p.dw (signed32 c * pow2 tsh) = ⟨signed32 c * 2 ^ tsh, false⟩ := by
    rw [pow2_eq, Calc.ext_iff, fit_val, fit_ovf, fits, sext_of_inRange (one_le_dw legal) fits]
    exact ⟨rfl, rfl⟩
  rw [addedConst, exact_eq]
  exact Calc.ext_iff.2 ⟨rfl, Bool.false_or _⟩

theorem tsh_le_of_cfgLegal {s : State} (cfgLegal : s.cfgLegal = true) : s.tsh ≤ s.params.dw - 33 := by
  obtain ⟨-, -, -, -, -, -, tsh_le, -⟩ := (cfgLegal_iff s).1 cfgLegal
  exact tsh_le

/-- Settles O19: the command writes FREQ[f] once, with the constant added to each real part. -/
theorem faddcCompletes : Obligations.FaddcCompletes := by
  intro s f legal cfgLegal hf sum
  have passes := check_of_operands (i := .faddc f) cfgLegal (by simpa [Instr.freqOperands] using hf) nofun nofun rfl rfl
  obtain ⟨t, runs, elem, ovf, completed, store, frame⟩ := completes_setFreq passes (writes_addConst legal hf s.const)
  rw [addedConst_of_legal legal (tsh_le_of_cfgLegal cfgLegal)] at elem ovf
  refine ⟨t, runs, fun j hj => ?_, ?_, completed, store, frame⟩
  · exact (freqEntry_of_freqElem_eq completed.params elem hj).trans (addedEach_freqElem_val s f.toNat _ hj)
  · rw [ovf, Bool.or_eq_true, addedEach_freqElem_ovf]
    rfl

/-- One index of FMAC: the rounded product of a and b is fitted, then its sum with d (41_frequency.md R101). -/
theorem mac_val (dw psh : Nat) (d a b : Cplx) : (mac dw psh d a b).val
    = ⟨sext dw (d.re + sext dw (rnd (a.re * b.re - a.im * b.im) psh)),
      sext dw (d.im + sext dw (rnd (a.re * b.im + a.im * b.re) psh))⟩ := rfl

theorem mac_ovf_iff (dw psh : Nat) (d a b : Cplx) : (mac dw psh d a b).ovf = true
    ↔ inRange dw (rnd (a.re * b.re - a.im * b.im) psh) = false
      ∨ inRange dw (rnd (a.re * b.im + a.im * b.re) psh) = false
      ∨ inRange dw (d.re + sext dw (rnd (a.re * b.re - a.im * b.im) psh)) = false
      ∨ inRange dw (d.im + sext dw (rnd (a.re * b.im + a.im * b.re) psh)) = false := by
  simp [mac, cmulRnd, cmulExact, addc, addw, or_assoc]

/-- FMAC works index by index on the entries that its operands held before it. -/
theorem macEntries_freqElem (s : State) (d a b : Nat) :
    macEntries s.params s.psh (s.freqElem d) (s.freqElem a) (s.freqElem b)
      = Calc.each (fun j => mac s.params.dw s.psh (s.freqEntry d j) (s.freqEntry a j) (s.freqEntry b j))
          (List.range s.params.l) := by
  refine Calc.each_congr fun j mem => ?_
  have hj := List.mem_range.1 mem
  rw [getD_freqElem _ _ _ _ hj, getD_freqElem _ _ _ _ hj, getD_freqElem _ _ _ _ hj]

/-- Settles O20: the command writes FREQ[d] once, from the entries of its operands before it. -/
theorem fmacCompletes : Obligations.FmacCompletes := by
  intro s d a b legal cfgLegal hd ha hb dw x y pr pi sr si
  have passes := check_of_operands (i := .fmac d a b) cfgLegal
    (by simpa [Instr.freqOperands] using ⟨hd, ha, hb⟩) nofun nofun rfl rfl
  obtain ⟨t, runs, elem, ovf, completed, store, frame⟩ :=
    completes_setFreq passes (writes_multiplyAccumulate legal hd a.toNat b.toNat)
  rw [macEntries_freqElem] at elem ovf
  refine ⟨t, runs, fun j hj => ?_, ?_, completed, store, frame⟩
  · rw [freqEntry_of_freqElem_eq completed.params elem hj, Calc.each_val,
      List.getD_eq_getElem _ _ (by simpa using hj), List.getElem_map, List.getElem_range, mac_val]
    rfl
  · rw [ovf, Bool.or_eq_true, Calc.each_range_ovf]
    simp only [mac_ovf_iff]
    rfl

/-- A digit is a 32-bit value, so its word reads back as the digit (42_gsw.md R110). -/
theorem signed32_low32_digit {ell bgbit : Nat} (hb : 1 ≤ bgbit) (hb' : bgbit ≤ 32) (a : Word) (j : Nat) :
    signed32 (low32 (digit ell bgbit a j)) = digit ell bgbit a j := by
  obtain ⟨lower, upper⟩ := digit_bounds ell hb a j
  have base : (2 : Int) ^ (bgbit - 1) ≤ 2 ^ 31 := pow_le_pow_right₀ (by decide) (by omega)
  rw [signed32_low32]
  refine sext_of_inRange (by decide) ((inRange_iff _ _).2 ?_)
  rw [pow2_eq]
  constructor <;> omega

/-- The digits written for coefficient c, read as signed words. -/
theorem signed32_digitWords {s : State} (cfgLegal : s.cfgLegal = true) (a j : Nat) {c : Nat} (hc : c < s.params.n) :
    signed32 ((digitWords s.ell s.bgbit (s.ringElem a) j).getD c 0) = digit s.ell s.bgbit (s.ringCoef a c) j := by
  obtain ⟨-, -, -, -, bgbit_ge, -, -, -⟩ := (cfgLegal_iff s).1 cfgLegal
  have bgbit_lt := s.cfg.bgbit.isLt
  have inside : c < (digitWords s.ell s.bgbit (s.ringElem a) j).length := by simpa [digitWords] using hc
  have coef := getD_ringElem s a c 0 hc
  rw [List.getD_eq_getElem _ _ (by rwa [length_ringElem])] at coef
  rw [List.getD_eq_getElem _ _ inside]
  simp only [digitWords, List.getElem_map, coef]
  exact signed32_low32_digit bgbit_ge bgbit_lt.le _ j

/-- Settles O21: the command reads its source whole, then writes one element for each digit. -/
theorem decompCompletes : Obligations.DecompCompletes := by
  intro s r a legal cfgLegal hr ha
  have passes := check_of_operands (i := .decomp r a) cfgLegal nofun (by simpa [Instr.ringOperands] using ha)
    (by simpa [Instr.runOperands] using hr) rfl rfl
  obtain ⟨completes, store⟩ := completesWith_of_effect passes
    (writes_decompose (r := r.toNat) legal (fun j hj => by omega) a.toNat)
  refine ⟨_, completes.runs, fun j hj c hc => ?_, completes.ovf.trans (Bool.or_false _), completes.completed, store,
    completes.sameMemoryBut_of_rings⟩
  · rw [completes.ringCoef_eq (mem_digitWrites.2 ⟨j, hj, rfl⟩) hc, signed32_digitWords cfgLegal a.toNat j hc]

end Sys2Proof.Machine
end

section
/-! PROOFS. The completion of the commands on the store (42_gsw.md R113 to R116). -/

namespace Sys2Proof.Machine

/-- Settles O23: zeros are written to every slot in use. -/
theorem gswClearCompletes : Obligations.GswClearCompletes := by
  intro s legal cfgLegal constructed shape
  have passes := check_of_store (i := .gswClear) cfgLegal rfl (stateAllows_of_constructed (.inl rfl) constructed) shape
  have completes := completesWith_of_writes passes (writes_clearStore legal cfgLegal) rfl rfl
  refine ⟨_, completes.runs, fun row hrow slot hslot j hj => ?_, rfl, (onlyMem_clearStore s).sameStore.2, ?_,
    completes.completed, completes.sameMemoryBut_of_freqs⟩
  · rw [completes.freqEntry_eq (List.mem_map.2 ⟨(row, slot), mem_rowSlots.2 ⟨hrow, hslot⟩, rfl⟩) hj,
      List.getD_replicate _ hj]
    rfl
  · rw [completes.ovf]
    simp

/-- Settles O24: the gadget constant is added to every slot of the diagonal, from what stood there. -/
theorem gswAddgCompletes : Obligations.GswAddgCompletes := by
  intro s legal cfgLegal ready shape id sum
  have passes := check_of_store (i := .gswAddg) cfgLegal rfl (by rw [ready]; rfl) shape
  obtain ⟨completes, store⟩ := completesWith_of_effect passes (writes_addGadget legal cfgLegal)
  have contents (x : Nat × Nat) : gadgetSum s x = addedEach s.params.dw
      (signed32 (BitVec.ofNat 32 (2 ^ (32 - (x.1 + 1) * s.bgbit))) * 2 ^ s.shift.tsh.toNat)
      (s.freqElem (id x.2 x.1)) :=
    addedConst_of_legal legal (tsh_le_of_cfgLegal cfgLegal) _ _
  refine ⟨_, completes.runs, fun i hi j hj e he => ?_, ?_, completes.completed, store,
    completes.sameMemoryBut_of_freqs⟩
  · rw [completes.freqEntry_eq (List.mem_map.2 ⟨(j, i), mem_diagonal.2 ⟨hj, hi⟩, rfl⟩) he, contents]
    exact addedEach_freqElem_val s _ _ he
  · rw [completes.ovf, Bool.or_eq_true, List.any_eq_true]
    simp only [contents, addedEach_freqElem_ovf, Prod.exists, mem_diagonal]
    refine or_congr_right ⟨?_, ?_⟩
    · rintro ⟨j, i, ⟨hj, hi⟩, e, he, out⟩
      exact ⟨i, hi, j, hj, e, he, out⟩
    · rintro ⟨i, hi, j, hj, e, he, out⟩
      exact ⟨j, i, ⟨hj, hi⟩, e, he, out⟩

/-- An overflow of some slot in use. -/
theorem any_rowSlots_iff (s : State) (raised : Nat × Nat → Bool) :
    (rowSlots s).any raised = true ↔ ∃ row < s.kpl, ∃ slot ≤ s.k, raised (row, slot) = true := by
  simp only [List.any_eq_true, Prod.exists, mem_rowSlots]
  exact exists_congr fun row => ⟨fun ⟨slot, ⟨hrow, hslot⟩, h⟩ => ⟨hrow, slot, hslot, h⟩,
    fun ⟨hrow, slot, hslot, h⟩ => ⟨slot, ⟨hrow, hslot⟩, h⟩⟩

/-- Settles O25: every slot in use is written once, with the spectrum of its ring form. -/
theorem gswTofCompletes : Obligations.GswTofCompletes := by
  intro s legal cfgLegal constructed shape y
  have passes := check_of_store (i := .gswTof) cfgLegal rfl (stateAllows_of_constructed (.inr rfl) constructed) shape
  have completes := completesWith_of_writes passes (writes_storeToFreq legal cfgLegal) rfl (Bool.or_false _)
  refine ⟨_, completes.runs, fun row hrow slot hslot => ?_, ?_, rfl, (onlyMem_storeToFreq s).sameStore.2,
    completes.completed, completes.sameMemoryBut_of_freqs⟩
  · exact completes.stands _ (List.mem_map.2 ⟨(row, slot), mem_rowSlots.2 ⟨hrow, hslot⟩, rfl⟩)
  · rw [completes.ovf, Bool.or_eq_true, any_rowSlots_iff]
    rfl

/-- Settles O26: every slot in use is written once, with the ring form of its spectrum. -/
theorem gswFromfCompletes : Obligations.GswFromfCompletes := by
  intro s legal cfgLegal ready shape y
  have passes := check_of_store (i := .gswFromf) cfgLegal rfl (by rw [ready]; rfl) shape
  obtain ⟨completes, store⟩ := completesWith_of_effect passes (writes_storeToRing legal cfgLegal)
  refine ⟨_, completes.runs, fun row hrow slot hslot => ?_, ?_, completes.completed, store,
    completes.sameMemoryBut_of_rings⟩
  · exact completes.stands _ (List.mem_map.2 ⟨(row, slot), mem_rowSlots.2 ⟨hrow, hslot⟩, rfl⟩)
  · rw [completes.ovf, Bool.or_eq_true, any_rowSlots_iff]
    rfl

end Sys2Proof.Machine
end

section
/-! PROOFS. The completion of EXTPROD (43_extprod.md R119 to R121). -/

namespace Sys2Proof.Machine

theorem rowSums_ovf_iff (s : State) (n slot : Nat) :
    (rowSums s n slot).ovf = true ↔ ∃ e < s.params.l, (rowSum s n slot e).ovf = true := by
  rw [rowSums, Calc.each_range_ovf]

theorem getD_rowSums {s : State} (n slot : Nat) {e : Nat} (he : e < s.params.l) :
    (rowSums s n slot).val.getD e Cplx.zero = (rowSum s n slot e).val := by
  rw [rowSums, Calc.each_val, List.getD_eq_getElem _ _ (by simpa using he), List.getElem_map, List.getElem_range]

theorem ringElem_finish (c : Calc State) (r : Nat) : (finish c).ringElem r = c.val.ringElem r := rfl

theorem freqElem_finish (c : Calc State) (f : Nat) : (finish c).freqElem f = c.val.freqElem f := rfl

theorem freqEntry_finish (c : Calc State) (f e : Nat) : (finish c).freqEntry f e = c.val.freqEntry f e := rfl

/-! The writes of each step are among those of the external product. -/

section
variable {s : State} (t1 t2 t3 : State)

theorem digit_mem_productWrites {i j : Nat} (hi : i ≤ s.k) (hj : j < s.ell) :
    .ring (s.params.digr (i * s.ell + j)) (digitWords s.ell s.bgbit (s.ringElem (s.params.acc i)) j)
      ∈ productWrites s t1 t2 t3 :=
  List.mem_append_left _ (mem_accDigits.2 ⟨i, hi, j, hj, rfl⟩)

theorem spectrum_mem_productWrites {row : Nat} (hrow : row < s.kpl) :
    .freq (s.params.digf row) (digitSpectrum t1 row).val ∈ productWrites s t1 t2 t3 :=
  List.mem_append_right _ (List.mem_append_left _ (List.mem_map.2 ⟨row, List.mem_range.2 hrow, rfl⟩))

theorem result_mem_productWrites {slot : Nat} (hslot : slot ≤ s.k) :
    .ring (s.params.acc slot) (ringResult t3 slot).val ∈ productWrites s t1 t2 t3 :=
  List.mem_append_right _ (List.mem_append_right _ (List.mem_append_right _
    (List.mem_map.2 ⟨slot, List.mem_range.2 (Nat.lt_succ_of_le hslot), rfl⟩)))

end

namespace ProductSteps

section
variable {s t1 t2 t3 : State} {out : Calc State} (h : ProductSteps s t1 t2 t3 out)
include h

theorem writes (legal : s.params.legal = true) (cfgLegal : s.cfgLegal = true) :
    Writes ⟨productWrites s t1 t2 t3, out.ovf⟩ s out :=
  ⟨h.performs legal cfgLegal, rfl⟩

theorem sum_mem_productWrites {slot : Nat} (hslot : slot ≤ s.k) :
    .freq (s.params.tmpf slot) (rowSums t2 s.kpl slot).val ∈ productWrites s t1 t2 t3 :=
  List.mem_append_right _ (List.mem_append_right _ (List.mem_append_left _ (h.mem_sums.2 ⟨slot, hslot, rfl⟩)))

/-- The overflow of the external product is that of one of its digit spectra, sums or results. -/
theorem ovf_iff : out.ovf = true ↔ (∃ row < s.kpl, (digitSpectrum t1 row).ovf = true)
    ∨ (∃ slot ≤ s.k, ∃ e < s.params.l, (rowSum t2 s.kpl slot e).ovf = true)
    ∨ ∃ slot ≤ s.k, (ringResult t3 slot).ovf = true := by
  rw [h.ovf]
  simp only [Bool.or_eq_true, List.any_eq_true, List.mem_range, Nat.lt_succ_iff, rowSums_ovf_iff, h.params2, or_assoc]

/-- The elements written in RING: the accumulator and the digit polynomials (43_extprod.md R121). -/
theorem mem_rings {r : Nat} {ws : List Word} (written : .ring r ws ∈ productWrites s t1 t2 t3) :
    r ∈ (List.range (s.k + 1)).map s.params.acc ++ (List.range s.kpl).map s.params.digr := by
  rcases List.mem_append.1 written with digits | written
  · obtain ⟨i, hi, j, hj, same⟩ := mem_accDigits.1 digits
    injection same with same
    exact List.mem_append_right _ (List.mem_map.2 ⟨_, List.mem_range.2 (digitRow_lt_kpl hi hj), same.symm⟩)
  · rcases List.mem_append.1 written with spectra | written
    · obtain ⟨row, -, same⟩ := List.mem_map.1 spectra
      cases same
    · rcases List.mem_append.1 written with sums | results
      · obtain ⟨slot, -, same⟩ := h.mem_sums.1 sums
        cases same
      · obtain ⟨slot, mem, same⟩ := List.mem_map.1 results
        injection same with same
        exact List.mem_append_left _ (List.mem_map.2 ⟨slot, mem, same⟩)

/-- The elements written in FREQ: the digit spectra and the temporary accumulator (43_extprod.md R121). -/
theorem mem_freqs {f : Nat} {es : List Cplx} (written : .freq f es ∈ productWrites s t1 t2 t3) :
    f ∈ (List.range s.kpl).map s.params.digf ++ (List.range (s.k + 1)).map s.params.tmpf := by
  rcases List.mem_append.1 written with digits | written
  · obtain ⟨i, -, j, -, same⟩ := mem_accDigits.1 digits
    cases same
  · rcases List.mem_append.1 written with spectra | written
    · obtain ⟨row, mem, same⟩ := List.mem_map.1 spectra
      injection same with same
      exact List.mem_append_left _ (List.mem_map.2 ⟨row, mem, same⟩)
    · rcases List.mem_append.1 written with sums | results
      · obtain ⟨slot, hslot, same⟩ := h.mem_sums.1 sums
        injection same with same
        exact List.mem_append_right _ (List.mem_map.2 ⟨slot, List.mem_range.2 (Nat.lt_succ_of_le hslot), same.symm⟩)
      · obtain ⟨slot, -, same⟩ := List.mem_map.1 results
        cases same

end

end ProductSteps

/-- EXTPROD completes with the writes of its four steps, and memory reads as they left it. -/
theorem extprod_completesWith {s : State} (legal : s.params.legal = true) (cfgLegal : s.cfgLegal = true)
    (ready : s.gswState = .ready) (shape : s.shape = s.cfg) : ∃ t t1 t2 t3 out, ProductSteps s t1 t2 t3 out
      ∧ CompletesWith .extprod ⟨productWrites s t1 t2 t3, out.ovf⟩ s t ∧ SameStore s t
      ∧ (∀ r, t.ringElem r = out.val.ringElem r) ∧ (∀ f, t.freqElem f = out.val.freqElem f)
      ∧ ∀ f e, t.freqEntry f e = out.val.freqEntry f e := by
  have passes := check_of_store (i := .extprod) cfgLegal rfl (by rw [ready]; rfl) shape
  obtain ⟨t1, t2, t3, steps⟩ := productSteps_externalProduct legal cfgLegal
  obtain ⟨completes, store⟩ := completesWith_of_effect passes (steps.writes legal cfgLegal)
  exact ⟨_, t1, t2, t3, externalProduct s, steps, completes, store, ringElem_finish (externalProduct s),
    freqElem_finish (externalProduct s), freqEntry_finish (externalProduct s)⟩

/-- Settles O27: the four steps write different elements, so each result stands at the end and the next step's input
with it. -/
theorem extprodCompletes : Obligations.ExtprodCompletes := by
  intro s legal cfgLegal ready shape p
  obtain ⟨t, t1, t2, t3, out, steps, completes, store, ring, freq, entry⟩ :=
    extprod_completesWith legal cfgLegal ready shape
  refine ⟨t, completes.runs, ?_⟩
  intro spectrum sum result
  have spectrum_eq {row : Nat} (hrow : row < s.kpl) : digitSpectrum t1 row = spectrum row := by
    rw [steps.digitSpectrum_eq legal cfgLegal hrow, ← ring]
    rfl
  have sum_eq {slot e : Nat} (hslot : slot ≤ s.k) (he : e < p.l) : rowSum t2 s.kpl slot e = sum slot e := by
    rw [steps.rowSum_eq legal cfgLegal hslot he]
    simp only [← entry]
    rfl
  have result_eq {slot : Nat} (hslot : slot ≤ s.k) : ringResult t3 slot = result slot := by
    rw [steps.ringResult_eq legal cfgLegal hslot, ← freq]
    rfl
  refine ⟨fun i hi j hj c hc => ?digits, fun row hrow => ?spectra, fun slot hslot e he => ?sums,
    fun slot hslot => ?results, ?overflow, completes.completed, store, completes.sameMemoryBut _ _ ?rings ?freqs⟩
  case digits => rw [completes.ringCoef_eq (digit_mem_productWrites t1 t2 t3 hi hj) hc, signed32_digitWords cfgLegal _ j hc]
  case spectra =>
    rw [← spectrum_eq hrow]
    exact completes.stands _ (spectrum_mem_productWrites t1 t2 t3 hrow)
  case sums =>
    rw [completes.freqEntry_eq (steps.sum_mem_productWrites hslot) he, getD_rowSums _ _ (steps.params2 ▸ he),
      sum_eq hslot he]
  case results =>
    rw [← result_eq hslot]
    exact completes.stands _ (result_mem_productWrites t1 t2 t3 hslot)
  case overflow =>
    rw [completes.ovf, Bool.or_eq_true, steps.ovf_iff]
    refine or_congr_right (or_congr ?_ (or_congr ?_ ?_))
    · exact exists_congr fun row => and_congr_right fun hrow => by rw [spectrum_eq hrow]
    · exact exists_congr fun slot => and_congr_right fun hslot => exists_congr fun e => and_congr_right fun he => by
        rw [sum_eq hslot he]
    · exact exists_congr fun slot => and_congr_right fun hslot => by rw [result_eq hslot]
  case rings => exact fun r ws written => steps.mem_rings written
  case freqs => exact fun f es written => steps.mem_freqs written

end Sys2Proof.Machine
end

section
/-! PROOFS. Zero entries: every operation of the datapath keeps them, exactly (41_frequency.md R98, R99; 43_extprod.md
R123). -/

namespace Sys2Proof

/-- A loop whose every step leaves the value leaves it. -/
theorem Calc.loop_exact {α β : Type} {f : β → α → Calc β} {b : β} {l : List α} (h : ∀ x ∈ l, f b x = Calc.exact b) :
    Calc.loop f b l = Calc.exact b := by
  induction l with
  | nil => rfl
  | cons x xs ih =>
    rw [Calc.loop, h x List.mem_cons_self, Calc.exact_val, ih fun y mem => h y (List.mem_cons_of_mem x mem)]
    rfl

theorem Calc.exact_andThen {α β : Type} (a : α) (f : α → Calc β) : (Calc.exact a).andThen f = f a :=
  Calc.ext_iff.2 ⟨rfl, Bool.false_or _⟩

/-- Exact calculations for every entry are one exact calculation. -/
theorem Calc.each_exact {α β : Type} (g : α → β) (l : List α) :
    Calc.each (fun x => Calc.exact (g x)) l = Calc.exact (l.map g) :=
  Calc.ext_iff.2 ⟨Calc.each_val _ l, by simp [Calc.each_ovf]⟩

end Sys2Proof

namespace Sys2Proof.Machine

theorem getD_replicate_self {α : Type} (x : α) (n i : Nat) : (List.replicate n x).getD i x = x := by
  rw [List.getD_eq_getElem?_getD, List.getElem?_getD_replicate_default_eq]

/-- L zero entries. -/
abbrev zeroEntries (p : Params) : List Cplx := List.replicate p.l Cplx.zero

theorem fit_of_inRange {dw : Nat} (hdw : 1 ≤ dw) {v : Int} (h : inRange dw v = true) : fit dw v = Calc.exact v :=
  Calc.ext_iff.2 ⟨sext_of_inRange hdw h, by rw [fit_ovf, h]; rfl⟩

section
variable {dw : Nat} (hdw : 1 ≤ dw)
include hdw

theorem fit_zero : fit dw 0 = Calc.exact 0 := fit_of_inRange hdw (cplxInRange_zero hdw).1

theorem cmulRnd_zero (n : Nat) (w : Cplx) : cmulRnd dw n w Cplx.zero = Calc.exact Cplx.zero := by
  simp only [cmulRnd, cmulExact, Cplx.zero, mul_zero, sub_zero, add_zero, rnd_zero, fit_zero hdw]
  rfl

theorem addc_zero {u : Cplx} (h : CplxInRange dw u) : addc dw u Cplx.zero = Calc.exact u := by
  obtain ⟨re, im⟩ := h
  simp only [addc, addw, Cplx.zero, add_zero, fit_of_inRange hdw re, fit_of_inRange hdw im]
  rfl

theorem subc_zero {u : Cplx} (h : CplxInRange dw u) : subc dw u Cplx.zero = Calc.exact u := by
  obtain ⟨re, im⟩ := h
  simp only [subc, subw, Cplx.zero, sub_zero, fit_of_inRange hdw re, fit_of_inRange hdw im]
  rfl

theorem rot_zero (m j : Nat) (dir : Dir) : rot dw m j dir Cplx.zero = Calc.exact Cplx.zero := by
  unfold rot
  split
  · rfl
  · split
    · split
      · rfl
      · cases dir <;> simp only [Cplx.zero, neg_zero, fit_zero hdw] <;> rfl
    · exact cmulRnd_zero hdw 30 _

/-- A butterfly whose second entry is 0 copies its first entry there. -/
theorem butterfly_of_zero (m : Nat) (dir : Dir) {y : List Cplx} (b j : Nat)
    (first : CplxInRange dw (y.getD (b + j) Cplx.zero)) (second : y.getD (b + j + m / 2) Cplx.zero = Cplx.zero) :
    butterfly dw m dir y (b, j)
      = Calc.exact ((y.set (b + j) (y.getD (b + j) Cplx.zero)).set (b + j + m / 2) (y.getD (b + j) Cplx.zero)) := by
  simp only [butterfly, second, rot_zero hdw, Calc.exact_val, addc_zero hdw first, subc_zero hdw first]
  rfl

theorem stage_zero (l n m : Nat) (dir : Dir) :
    stage dw l dir (List.replicate n Cplx.zero) m = Calc.exact (List.replicate n Cplx.zero) := by
  refine Calc.loop_exact fun at_ _ => ?_
  have zero (i : Nat) : (List.replicate n Cplx.zero).getD i Cplx.zero = Cplx.zero := getD_replicate_self _ _ _
  have first : CplxInRange dw ((List.replicate n Cplx.zero).getD (at_.1 + at_.2) Cplx.zero) :=
    (zero _).symm ▸ cplxInRange_zero hdw
  rw [butterfly_of_zero hdw m dir at_.1 at_.2 first (zero _), zero, List.set_replicate_self, List.set_replicate_self]

end

section
variable {p : Params} (legal : p.legal = true)

theorem permute_zero : permute p (zeroEntries p) = zeroEntries p := by
  simp only [permute, getD_replicate_self]
  exact List.map_const'.trans (by rw [List.length_range])

theorem scaleInv_zero : scaleInv p Cplx.zero = Cplx.zero := by
  simp only [scaleInv, Cplx.zero, rnd_zero]

include legal

theorem fft_zero (dir : Dir) : fft p dir (zeroEntries p) = Calc.exact (zeroEntries p) := by
  have stages : network p dir (zeroEntries p) = Calc.exact (zeroEntries p) := by
    rw [network, permute_zero]
    exact Calc.loop_exact fun m _ => stage_zero (one_le_dw legal) p.l p.l m dir
  cases dir with
  | fwd => exact stages
  | inv =>
    rw [fft_inv, stages, Calc.exact_val, List.map_replicate, scaleInv_zero]
    rfl

/-- Coefficients 0 fold and pre-twist to 0. -/
theorem preTwist_of_zero {sh : Nat} {a : List Word} {j : Nat} (re : a.getD j 0 = 0) (im : a.getD (j + p.l) 0 = 0) :
    preTwist p sh a j = Calc.exact Cplx.zero := by
  have folded : fold p sh a j = Calc.exact Cplx.zero := by
    have value : signed32 0 = 0 := by decide
    rw [fold, re, im, value, zero_mul, fit_zero (one_le_dw legal)]
    rfl
  rw [preTwist, folded, Calc.exact_andThen]
  exact cmulRnd_zero (one_le_dw legal) 30 _

theorem r2f_zero (sh : Nat) : r2f p sh (List.replicate p.n 0) = Calc.exact (zeroEntries p) := by
  have entry (j : Nat) : preTwist p sh (List.replicate p.n 0) j = Calc.exact Cplx.zero :=
    preTwist_of_zero legal (getD_replicate_self _ _ _) (getD_replicate_self _ _ _)
  have entries : Calc.each (preTwist p sh (List.replicate p.n 0)) (List.range p.l) = Calc.exact (zeroEntries p) := by
    rw [funext entry, Calc.each_exact]
    exact congrArg Calc.exact (List.map_const'.trans (by rw [List.length_range]))
  rw [r2f, entries, Calc.exact_andThen, fft_zero legal]

theorem f2r_zero (tsh : Nat) : f2r p tsh (zeroEntries p) = Calc.exact (List.replicate p.n 0) := by
  have entry (j : Nat) : unTwist p (zeroEntries p) j = Calc.exact Cplx.zero := by
    rw [unTwist, getD_replicate_self]
    exact cmulRnd_zero (one_le_dw legal) 30 _
  have entries : Calc.each (unTwist p (zeroEntries p)) (List.range p.l) = Calc.exact (zeroEntries p) := by
    rw [funext entry, Calc.each_exact]
    exact congrArg Calc.exact (List.map_const'.trans (by rw [List.length_range]))
  have word : toTorus tsh 0 = 0 := by rw [toTorus, rnd_zero]; rfl
  rw [f2r, fft_zero legal .inv, Calc.exact_andThen, entries, (legal_n legal).1, two_mul]
  simp only [Calc.exact_val, List.map_replicate, Cplx.zero, word, List.replicate_append_replicate]
  rfl

end

/-- CFG stays legal under a completed command. -/
theorem Completed.cfgLegal {s t : State} (h : Completed s t) (cfgLegal : s.cfgLegal = true) : t.cfgLegal = true := by
  rw [cfgLegal_iff, h.cfg, h.params, h.shift]
  exact (cfgLegal_iff s).1 cfgLegal

/-- Settles O55: zeros stay zeros through fold, twist and stages, and back. -/
theorem zeroPolynomialIsExact : Obligations.ZeroPolynomialIsExact := by
  refine ⟨fun p sh legal => r2f_zero legal sh, fun s f r legal cfgLegal hf hr => ?_⟩
  obtain ⟨t, runs, elem, ovf, completed, -, -⟩ := fclear_completes legal cfgLegal hf
  have params := completed.params
  have passes := check_f2r (r := r) (f := f) (completed.cfgLegal cfgLegal) (params ▸ hr) (params ▸ hf)
  obtain ⟨u, runs', elem', ovf', -⟩ := completes_setRing passes (writes_freqToRing (params ▸ legal) (params ▸ hr) f.toNat)
  rw [elem, params, f2r_zero legal] at elem' ovf'
  exact ⟨t, u, runs, runs', elem', by rw [ovf', ovf, Calc.exact_ovf, Bool.or_false, Bool.or_false]⟩

/-- A product with 0 adds nothing to an accumulator of 0. -/
theorem mac_zero {dw : Nat} (hdw : 1 ≤ dw) (psh : Nat) (a : Cplx) :
    mac dw psh Cplx.zero a Cplx.zero = Calc.exact Cplx.zero := by
  rw [mac, cmulRnd_zero hdw, Calc.exact_andThen, addc_zero hdw (cplxInRange_zero hdw)]

/-- Settles O58: every product with the store is 0, so every sum is 0, and its ring form too. -/
theorem zeroSampleGivesZero : Obligations.ZeroSampleGivesZero := by
  intro s legal cfgLegal ready shape zeroStore
  obtain ⟨t, runs, -, -, sums, results, -, completed, -⟩ := extprodCompletes s legal cfgLegal ready shape
  refine ⟨t, runs, fun slot hslot => ?_⟩
  have sum (e : Nat) (he : e < s.params.l) : t.freqEntry (s.params.tmpf slot) e = Cplx.zero := by
    rw [sums slot hslot e he]
    refine Calc.loop_keeps (fun x => x = Cplx.zero) _ _ (fun x row mem zero => ?_) _ rfl
    rw [zero, zeroStore row (List.mem_range.1 mem) slot hslot e he]
    exact congrArg Calc.val (mac_zero (one_le_dw legal) _ _)
  have sums : t.freqElem (s.params.tmpf slot) = zeroEntries s.params := by
    rw [freqElem_eq_map, completed.params]
    exact (List.map_congr_left fun e mem => sum e (List.mem_range.1 mem)).trans
      (List.map_const'.trans (by rw [List.length_range]))
  have result : _ = (f2r s.params s.shift.tsh.toNat (t.freqElem (s.params.tmpf slot))).val := results slot hslot
  rw [result, sums, f2r_zero legal, Calc.exact_val]

end Sys2Proof.Machine
end

section
/-! PROOFS. The spectrum of a constant polynomial: an entry at index 0 alone spreads over twice as many entries with
every stage (41_frequency.md R96). -/

namespace Sys2Proof.Machine

/-- `l` entries, `v` at the first `c` of them and 0 behind. -/
def leading (l : Nat) (v : Cplx) (c : Nat) : List Cplx := (List.range l).map fun i => if i < c then v else Cplx.zero

theorem length_leading (l : Nat) (v : Cplx) (c : Nat) : (leading l v c).length = l := by simp [leading]

theorem getD_leading {l c : Nat} (hc : c ≤ l) (v : Cplx) (i : Nat) :
    (leading l v c).getD i Cplx.zero = if i < c then v else Cplx.zero := by
  by_cases hi : i < l
  · simp [leading, List.getD_eq_getElem?_getD, hi]
  · rw [List.getD_eq_default _ _ (by rw [length_leading]; omega), if_neg (by omega)]

theorem leading_all (l : Nat) (v : Cplx) : leading l v l = List.replicate l v :=
  List.eq_replicate_iff.2 ⟨length_leading l v l, fun x mem => by
    obtain ⟨i, hi, rfl⟩ := List.mem_map.1 mem
    exact if_pos (List.mem_range.1 hi)⟩

/-- A list whose entries at both places became `x` has `x` at either. -/
theorem getD_set_of_eq_or_eq {α : Type} {l : List α} {i lo hi : Nat} (place : i = lo ∨ i = hi) (inside : i < l.length)
    (x d : α) : ((l.set lo x).set hi x).getD i d = x := by
  by_cases last : hi = i
  · subst last
    simp [List.getD_eq_getElem?_getD, inside]
  · obtain rfl : i = lo := place.resolve_right (Ne.symm last)
    simp [List.getD_eq_getElem?_getD, inside, List.getElem_set_ne last]

section
variable {dw : Nat} (hdw : 1 ≤ dw) {v : Cplx} (fits : CplxInRange dw v)
include hdw fits

/-- The second half of block 0 is 0, and so are all other blocks: each butterfly copies its first entry to its second. -/
theorem butterfly_leading {l h : Nat} (hl : h ≤ l) (dir : Dir) (b : Nat) {j : Nat} (hj : j < h) :
    let first := if b = 0 then v else Cplx.zero
    butterfly dw (2 * h) dir (leading l v h) (b * (2 * h), j)
      = Calc.exact (((leading l v h).set (b * (2 * h) + j) first).set (b * (2 * h) + j + 2 * h / 2) first) := by
  have half : 2 * h / 2 = h := Nat.mul_div_cancel_left h two_pos
  have first : (leading l v h).getD (b * (2 * h) + j) Cplx.zero = if b = 0 then v else Cplx.zero := by
    rw [getD_leading hl]
    refine if_congr ⟨fun lt => ?_, fun zero => by rw [zero]; omega⟩ rfl rfl
    by_contra later
    have := Nat.le_mul_of_pos_left (2 * h) (Nat.pos_of_ne_zero later)
    omega
  have second : (leading l v h).getD (b * (2 * h) + j + 2 * h / 2) Cplx.zero = Cplx.zero := by
    rw [getD_leading hl, if_neg (by omega)]
  have firstFits : CplxInRange dw ((leading l v h).getD (b * (2 * h) + j) Cplx.zero) := by
    rw [first]
    split
    · exact fits
    · exact cplxInRange_zero hdw
  rw [butterfly_of_zero hdw _ dir _ _ firstFits second, first]

/-- A stage doubles the run of equal entries. -/
theorem stage_leading {l h : Nat} (hh : 0 < h) (dvd : 2 * h ∣ l) (hl : 0 < l) (dir : Dir) :
    stage dw l dir (leading l v h) (2 * h) = Calc.exact (leading l v (2 * h)) := by
  have half : 2 * h / 2 = h := Nat.mul_div_cancel_left h two_pos
  have block_le : 2 * h ≤ l := Nat.le_of_dvd hl dvd
  have copies (b : Nat) {j : Nat} (hj : j < h) := butterfly_leading hdw fits (show h ≤ l by omega) dir b hj
  obtain ⟨raised, value⟩ := stage_of_even (dw := dw) (l := l) (h := h) (dir := dir) (y := leading l v h)
  refine Calc.ext_iff.2 ⟨List.ext_getElem ((stage_length _ _ _ _ _).trans ?_) fun i hi hi' => ?_, ?_⟩
  · rw [length_leading, Calc.exact_val, length_leading]
  · rw [Calc.exact_val, length_leading] at hi'
    have inBlocks : i / (2 * h) < l / (2 * h) := Nat.div_lt_div_of_lt_of_dvd dvd hi'
    have split_i : i / (2 * h) * (2 * h) + i % (2 * h) = i := Nat.div_add_mod' i (2 * h)
    have offset_lt : i % (2 * h) < 2 * h := Nat.mod_lt _ (by omega)
    obtain ⟨j, hj, touches⟩ : ∃ j < h, Touches (2 * h) (i / (2 * h) * (2 * h), j) i := by
      by_cases lower : i % (2 * h) < h
      · exact ⟨_, lower, .inl split_i.symm⟩
      · exact ⟨i % (2 * h) - h, by omega, .inr (by rw [half]; dsimp only; omega)⟩
    have entry := value _ inBlocks j (by omega) i touches
    rw [copies _ hj, Calc.exact_val] at entry
    have inside : i < (leading l v h).length := by rwa [length_leading]
    rw [← List.getD_eq_getElem _ Cplx.zero hi, ← List.getD_eq_getElem _ Cplx.zero, entry, getD_set_of_eq_or_eq touches inside,
      Calc.exact_val, getD_leading block_le]
    exact if_congr (Nat.div_eq_zero_iff_lt (by omega)) rfl rfl
  · rw [Calc.exact_ovf, Bool.eq_false_iff, Ne, raised]
    rintro ⟨b, -, j, hj, up⟩
    rw [copies b (by omega), Calc.exact_ovf] at up
    exact absurd up nofun

end

/-- Bit reversal leaves index 0 in its place and brings no other index there. -/
theorem permute_leading (p : Params) (v : Cplx) : permute p (leading p.l v 1) = leading p.l v 1 := by
  have size_pos : 1 ≤ p.l := Nat.two_pow_pos _
  refine List.map_congr_left fun i mem => (getD_leading size_pos v _).trans (if_congr ?_ rfl rfl)
  have inTable : i < 2 ^ p.logL := List.mem_range.1 mem
  have zero (n : Nat) : rev n 0 = 0 := by
    induction n with
    | zero => rfl
    | succ n ih => rw [rev, Nat.zero_mod, Nat.zero_mul, Nat.zero_div, ih]
  rw [Nat.lt_one_iff, Nat.lt_one_iff, brrom]
  refine ⟨fun first => ?_, fun first => by rw [first, zero]⟩
  rw [← rev_rev inTable, first, zero]

section
variable {p : Params} (legal : p.legal = true) {v : Cplx} (fits : CplxInRange p.dw v)
include legal fits

/-- After the first k stages the entry at index 0 has spread over 2^k entries. -/
theorem stages_leading (dir : Dir) {k : Nat} (hk : k ≤ p.logL) :
    Calc.loop (fun y i => stage p.dw p.l dir y (2 ^ (i + 1))) (leading p.l v 1) (List.range k)
      = Calc.exact (leading p.l v (2 ^ k)) := by
  induction k with
  | zero => rfl
  | succ k ih =>
    have dvd : 2 * 2 ^ k ∣ p.l := by
      rw [(legal_l legal).1, ← pow_succ']
      exact pow_dvd_pow 2 hk
    rw [Calc.loop_range_succ, ih (by omega), Calc.exact_andThen, pow_succ']
    exact stage_leading (one_le_dw legal) fits (Nat.two_pow_pos k) dvd (Nat.two_pow_pos _) dir

theorem fft_leading : fft p .fwd (leading p.l v 1) = Calc.exact (List.replicate p.l v) := by
  rw [fft_fwd, network, permute_leading, stageSizes, Calc.loop_map_list, stages_leading legal fits .fwd le_rfl,
    ← (legal_l legal).1, leading_all]

end

/-- The twist of coefficient 0 is exactly 1. -/
theorem twist_zero (p : Params) : twist p 0 = ⟨2 ^ 30, 0⟩ := by
  rw [twist, twistCos, twistSin, Nat.zero_mul, show cosQ30 0 = 2 ^ 30 by decide +kernel,
    show sinQ30 0 = 0 by decide +kernel]

/-- `r2f` of a constant polynomial at a torus scale (41_frequency.md R96). -/
theorem r2f_constant {p : Params} (legal : p.legal = true) {sh : Nat} (small : sh ≤ p.dw - 33) {a : List Word}
    (constant : ∀ c, 1 ≤ c → a.getD c 0 = 0) :
    r2f p sh a = Calc.exact (List.replicate p.l ⟨signed32 (a.getD 0 0) * 2 ^ sh, 0⟩) := by
  obtain ⟨dw_ge, -⟩ := legal_dw legal
  have size_pos : 1 ≤ p.l := Nat.two_pow_pos _
  have fits : CplxInRange p.dw ⟨signed32 (a.getD 0 0) * 2 ^ sh, 0⟩ :=
    ⟨inRange_signed32_mul_two_pow (by omega) _, (cplxInRange_zero (one_le_dw legal)).2⟩
  have first : preTwist p sh a 0 = Calc.exact ⟨signed32 (a.getD 0 0) * 2 ^ sh, 0⟩ := by
    have value : signed32 0 = 0 := by decide
    rw [preTwist, torusFoldNeverOverflows p sh a 0 legal small, twist_zero, Nat.zero_add, constant p.l size_pos, value,
      zero_mul]
    exact (Calc.exact_andThen _ _).trans (cmul30_one (one_le_dw legal) fits.1 fits.2)
  have entry (j : Nat) (_ : j ∈ List.range p.l) : preTwist p sh a j
      = Calc.exact (if j < 1 then ⟨signed32 (a.getD 0 0) * 2 ^ sh, 0⟩ else Cplx.zero) := by
    split
    · obtain rfl : j = 0 := by omega
      exact first
    · exact preTwist_of_zero legal (constant j (by omega)) (constant _ (by omega))
  rw [r2f, Calc.each_congr entry, Calc.each_exact, Calc.exact_andThen]
  exact fft_leading legal fits

/-- Settles O56: R2F_T writes the spectrum of a constant polynomial, which is exact. -/
theorem constantPolynomialSpectrum : Obligations.ConstantPolynomialSpectrum := by
  intro s f r legal cfgLegal hf hr constant
  obtain ⟨t, runs, elem, ovf, completed, -⟩ :=
    ringToFrequencyCompletes s f r legal cfgLegal hf hr (.r2fT f r) s.tsh (.inl ⟨rfl, rfl⟩)
  have coef (c : Nat) (hc : 1 ≤ c) : (s.ringElem r.toNat).getD c 0 = 0 := by
    by_cases inside : c < s.params.n
    · rw [getD_ringElem _ _ _ _ inside, constant c hc inside]
    · exact List.getD_eq_default _ _ (by rw [length_ringElem]; omega)
  rw [r2f_constant legal (tsh_le_of_cfgLegal cfgLegal) coef,
    getD_ringElem _ _ _ _ (show 0 < s.params.n from Nat.two_pow_pos _)] at elem ovf
  refine ⟨t, runs, ovf.trans (Bool.or_false _), fun j hj => ?_⟩
  rw [freqEntry_of_freqElem_eq completed.params elem hj]
  exact List.getD_replicate _ hj

end Sys2Proof.Machine
end
